-- ==== Sys2Proof/Word.lean ====
section
/-! DEFINITION. The two word types of the core: bytes and 16-bit bus addresses (10_state.md R20, 20_memory.md R50). -/

namespace Sys2Proof

/-- A byte: the width of `A`, `X`, `Y`, `SP` and of every bus cell (R14, R20). Its arithmetic wraps modulo 256 (R21). -/
abbrev Byte := BitVec 8

/-- A 16-bit bus address; also the type of `PC` (R14, R24, R50). Its arithmetic wraps modulo 65536. -/
abbrev Addr := BitVec 16

end Sys2Proof
end

