-- ==== Sys2Proof/Machine/Bytes.lean ====
section
/-! DEFINITION. The byte-order, extension and bit helpers that the decoder and the machine share (00_scope.md R16,
20_memory.md R53). -/

namespace Sys2Proof.Machine

/-- R16: the concatenation `hi:lo` of two bytes, `(hi << 8) | lo`. -/
def ofHiLo (hi lo : Byte) : Addr := hi ++ lo

/-- R16: bits 15 to 8 of a 16-bit value. -/
def hiByte (w : Addr) : Byte := w.extractLsb' 8 8

/-- R16: bits 7 to 0 of a 16-bit value. -/
def loByte (w : Addr) : Byte := w.extractLsb' 0 8

/-- R16: `zext_16`, a byte as a 16-bit value. -/
def zext16 (b : Byte) : Addr := b.setWidth 16

/-- R16: `sext_16`, a byte read as a two's-complement number, modulo 65536. -/
def sext16 (b : Byte) : Addr := b.signExtend 16

/-- R16: a boolean used as a number is 1 for true and 0 for false. -/
def ofBit (b : Bool) : Byte := if b then 1#8 else 0#8

end Sys2Proof.Machine
end

