-- ==== Sys2Proof/Syntax.lean ====
section
/-! DEFINITION. The syntax of instructions: the thirteen addressing modes with their operand bytes (30_encoding.md R71,
R73) and one constructor of `Instr` for each of the 151 rows of spec/opcode_table.json (R74). An `abs`-family operand is
the assembled little-endian `address = arg2:arg1` (R73). -/

namespace Sys2Proof

/-- The names of the thirteen addressing modes (R71, R90). -/
inductive ModeName where
  | imp | acc | imm | zp | zpx | zpy | abs | abx | aby | izx | izy | ind | rel
deriving DecidableEq, Repr

/-- The eight modes that resolve to a bus cell `Mem(ea)` (R90), each with its operand bytes. -/
inductive MemMode where
  /-- Zero page (R94). -/
  | zp (a1 : Byte)
  /-- Zero page,X (R95). -/
  | zpx (a1 : Byte)
  /-- Zero page,Y (R96). -/
  | zpy (a1 : Byte)
  /-- Absolute (R97). -/
  | abs (w : Addr)
  /-- Absolute,X (R98). -/
  | abx (w : Addr)
  /-- Absolute,Y (R99). -/
  | aby (w : Addr)
  /-- Indexed indirect (zp,X) (R100). -/
  | izx (a1 : Byte)
  /-- Indirect indexed (zp),Y (R101). -/
  | izy (a1 : Byte)
deriving DecidableEq, Repr

/-- An addressing mode together with the operand bytes it takes (R71, R73). -/
inductive Mode where
  /-- Implied: the operation names its operands itself (R91). -/
  | imp
  /-- Accumulator (R92). -/
  | acc
  /-- Immediate: the operand value itself (R93). -/
  | imm (v : Byte)
  /-- A mode that resolves to a bus cell (R94 to R101). -/
  | mem (m : MemMode)
  /-- Indirect, JMP only; `w` is the address of the pointer (R102). -/
  | ind (w : Addr)
  /-- Relative, branches only; `d` is the displacement byte (R103). -/
  | rel (d : Byte)
deriving DecidableEq, Repr

/-- The 56 mnemonics of the opcode map (R74). -/
inductive Mnemonic where
  | brk | ora | asl | php | bpl | clc | jsr | and | bit | rol | plp | bmi | sec | rti | eor | lsr | pha | jmp
  | bvc | cli | rts | adc | ror | pla | bvs | sei | sta | sty | stx | dey | txa | bcc | tya | txs | ldy | lda
  | ldx | tay | tax | bcs | clv | tsx | cpy | cmp | dec | iny | dex | bne | cld | cpx | sbc | inc | inx | nop
  | beq | sed
deriving DecidableEq, Repr

/-- The instructions: one constructor for each row of spec/opcode_table.json (R74, R75). `v` is an immediate value,
`a1` a zero-page operand byte, `w` a 16-bit operand (`arg2:arg1`), `d` a branch displacement. A mnemonic with one mode
gives its name alone to its constructor. -/
inductive Instr where
  | brk  -- BRK
  | oraImm (v : Byte)  -- ORA #$nn
  | oraZp (a1 : Byte)  -- ORA $nn
  | oraZpx (a1 : Byte)  -- ORA $nn,X
  | oraAbs (w : Addr)  -- ORA $nnnn
  | oraAbx (w : Addr)  -- ORA $nnnn,X
  | oraAby (w : Addr)  -- ORA $nnnn,Y
  | oraIzx (a1 : Byte)  -- ORA ($nn,X)
  | oraIzy (a1 : Byte)  -- ORA ($nn),Y
  | aslAcc  -- ASL A
  | aslZp (a1 : Byte)  -- ASL $nn
  | aslZpx (a1 : Byte)  -- ASL $nn,X
  | aslAbs (w : Addr)  -- ASL $nnnn
  | aslAbx (w : Addr)  -- ASL $nnnn,X
  | php  -- PHP
  | bpl (d : Byte)  -- BPL $nnnn (target)
  | clc  -- CLC
  | jsr (w : Addr)  -- JSR $nnnn
  | andImm (v : Byte)  -- AND #$nn
  | andZp (a1 : Byte)  -- AND $nn
  | andZpx (a1 : Byte)  -- AND $nn,X
  | andAbs (w : Addr)  -- AND $nnnn
  | andAbx (w : Addr)  -- AND $nnnn,X
  | andAby (w : Addr)  -- AND $nnnn,Y
  | andIzx (a1 : Byte)  -- AND ($nn,X)
  | andIzy (a1 : Byte)  -- AND ($nn),Y
  | bitZp (a1 : Byte)  -- BIT $nn
  | bitAbs (w : Addr)  -- BIT $nnnn
  | rolAcc  -- ROL A
  | rolZp (a1 : Byte)  -- ROL $nn
  | rolZpx (a1 : Byte)  -- ROL $nn,X
  | rolAbs (w : Addr)  -- ROL $nnnn
  | rolAbx (w : Addr)  -- ROL $nnnn,X
  | plp  -- PLP
  | bmi (d : Byte)  -- BMI $nnnn (target)
  | sec  -- SEC
  | rti  -- RTI
  | eorImm (v : Byte)  -- EOR #$nn
  | eorZp (a1 : Byte)  -- EOR $nn
  | eorZpx (a1 : Byte)  -- EOR $nn,X
  | eorAbs (w : Addr)  -- EOR $nnnn
  | eorAbx (w : Addr)  -- EOR $nnnn,X
  | eorAby (w : Addr)  -- EOR $nnnn,Y
  | eorIzx (a1 : Byte)  -- EOR ($nn,X)
  | eorIzy (a1 : Byte)  -- EOR ($nn),Y
  | lsrAcc  -- LSR A
  | lsrZp (a1 : Byte)  -- LSR $nn
  | lsrZpx (a1 : Byte)  -- LSR $nn,X
  | lsrAbs (w : Addr)  -- LSR $nnnn
  | lsrAbx (w : Addr)  -- LSR $nnnn,X
  | pha  -- PHA
  | jmpAbs (w : Addr)  -- JMP $nnnn
  | jmpInd (w : Addr)  -- JMP ($nnnn)
  | bvc (d : Byte)  -- BVC $nnnn (target)
  | cli  -- CLI
  | rts  -- RTS
  | adcImm (v : Byte)  -- ADC #$nn
  | adcZp (a1 : Byte)  -- ADC $nn
  | adcZpx (a1 : Byte)  -- ADC $nn,X
  | adcAbs (w : Addr)  -- ADC $nnnn
  | adcAbx (w : Addr)  -- ADC $nnnn,X
  | adcAby (w : Addr)  -- ADC $nnnn,Y
  | adcIzx (a1 : Byte)  -- ADC ($nn,X)
  | adcIzy (a1 : Byte)  -- ADC ($nn),Y
  | rorAcc  -- ROR A
  | rorZp (a1 : Byte)  -- ROR $nn
  | rorZpx (a1 : Byte)  -- ROR $nn,X
  | rorAbs (w : Addr)  -- ROR $nnnn
  | rorAbx (w : Addr)  -- ROR $nnnn,X
  | pla  -- PLA
  | bvs (d : Byte)  -- BVS $nnnn (target)
  | sei  -- SEI
  | staZp (a1 : Byte)  -- STA $nn
  | staZpx (a1 : Byte)  -- STA $nn,X
  | staAbs (w : Addr)  -- STA $nnnn
  | staAbx (w : Addr)  -- STA $nnnn,X
  | staAby (w : Addr)  -- STA $nnnn,Y
  | staIzx (a1 : Byte)  -- STA ($nn,X)
  | staIzy (a1 : Byte)  -- STA ($nn),Y
  | styZp (a1 : Byte)  -- STY $nn
  | styZpx (a1 : Byte)  -- STY $nn,X
  | styAbs (w : Addr)  -- STY $nnnn
  | stxZp (a1 : Byte)  -- STX $nn
  | stxZpy (a1 : Byte)  -- STX $nn,Y
  | stxAbs (w : Addr)  -- STX $nnnn
  | dey  -- DEY
  | txa  -- TXA
  | bcc (d : Byte)  -- BCC $nnnn (target)
  | tya  -- TYA
  | txs  -- TXS
  | ldyImm (v : Byte)  -- LDY #$nn
  | ldyZp (a1 : Byte)  -- LDY $nn
  | ldyZpx (a1 : Byte)  -- LDY $nn,X
  | ldyAbs (w : Addr)  -- LDY $nnnn
  | ldyAbx (w : Addr)  -- LDY $nnnn,X
  | ldaImm (v : Byte)  -- LDA #$nn
  | ldaZp (a1 : Byte)  -- LDA $nn
  | ldaZpx (a1 : Byte)  -- LDA $nn,X
  | ldaAbs (w : Addr)  -- LDA $nnnn
  | ldaAbx (w : Addr)  -- LDA $nnnn,X
  | ldaAby (w : Addr)  -- LDA $nnnn,Y
  | ldaIzx (a1 : Byte)  -- LDA ($nn,X)
  | ldaIzy (a1 : Byte)  -- LDA ($nn),Y
  | ldxImm (v : Byte)  -- LDX #$nn
  | ldxZp (a1 : Byte)  -- LDX $nn
  | ldxZpy (a1 : Byte)  -- LDX $nn,Y
  | ldxAbs (w : Addr)  -- LDX $nnnn
  | ldxAby (w : Addr)  -- LDX $nnnn,Y
  | tay  -- TAY
  | tax  -- TAX
  | bcs (d : Byte)  -- BCS $nnnn (target)
  | clv  -- CLV
  | tsx  -- TSX
  | cpyImm (v : Byte)  -- CPY #$nn
  | cpyZp (a1 : Byte)  -- CPY $nn
  | cpyAbs (w : Addr)  -- CPY $nnnn
  | cmpImm (v : Byte)  -- CMP #$nn
  | cmpZp (a1 : Byte)  -- CMP $nn
  | cmpZpx (a1 : Byte)  -- CMP $nn,X
  | cmpAbs (w : Addr)  -- CMP $nnnn
  | cmpAbx (w : Addr)  -- CMP $nnnn,X
  | cmpAby (w : Addr)  -- CMP $nnnn,Y
  | cmpIzx (a1 : Byte)  -- CMP ($nn,X)
  | cmpIzy (a1 : Byte)  -- CMP ($nn),Y
  | decZp (a1 : Byte)  -- DEC $nn
  | decZpx (a1 : Byte)  -- DEC $nn,X
  | decAbs (w : Addr)  -- DEC $nnnn
  | decAbx (w : Addr)  -- DEC $nnnn,X
  | iny  -- INY
  | dex  -- DEX
  | bne (d : Byte)  -- BNE $nnnn (target)
  | cld  -- CLD
  | cpxImm (v : Byte)  -- CPX #$nn
  | cpxZp (a1 : Byte)  -- CPX $nn
  | cpxAbs (w : Addr)  -- CPX $nnnn
  | sbcImm (v : Byte)  -- SBC #$nn
  | sbcZp (a1 : Byte)  -- SBC $nn
  | sbcZpx (a1 : Byte)  -- SBC $nn,X
  | sbcAbs (w : Addr)  -- SBC $nnnn
  | sbcAbx (w : Addr)  -- SBC $nnnn,X
  | sbcAby (w : Addr)  -- SBC $nnnn,Y
  | sbcIzx (a1 : Byte)  -- SBC ($nn,X)
  | sbcIzy (a1 : Byte)  -- SBC ($nn),Y
  | incZp (a1 : Byte)  -- INC $nn
  | incZpx (a1 : Byte)  -- INC $nn,X
  | incAbs (w : Addr)  -- INC $nnnn
  | incAbx (w : Addr)  -- INC $nnnn,X
  | inx  -- INX
  | nop  -- NOP
  | beq (d : Byte)  -- BEQ $nnnn (target)
  | sed  -- SED
deriving DecidableEq, Repr

end Sys2Proof
end

