-- ==== Sys2Proof/Decode.lean ====
section
/-! DEFINITION. The columns of the opcode table that describe an instruction (mnemonic, mode, length), the opcode decoder
(30_encoding.md) and, after it, the encoder. The decoder is a total function of the
bytes; a byte outside the recognized set is answered `Decoded.unrecognized`, by its value (R76). -/

namespace Sys2Proof

open Machine (ofHiLo hiByte loByte)

/-- The spec's name of a mode that resolves to a bus cell. -/
def MemMode.name : MemMode → ModeName
  | .zp _ => .zp
  | .zpx _ => .zpx
  | .zpy _ => .zpy
  | .abs _ => .abs
  | .abx _ => .abx
  | .aby _ => .aby
  | .izx _ => .izx
  | .izy _ => .izy

/-- The spec's name of a mode. -/
def Mode.name : Mode → ModeName
  | .imp => .imp
  | .acc => .acc
  | .imm _ => .imm
  | .mem m => m.name
  | .ind _ => .ind
  | .rel _ => .rel

/-- The mnemonic of each instruction (R74). -/
def Instr.mnemonic : Instr → Mnemonic
  | .brk => .brk
  | .oraImm _ => .ora
  | .oraZp _ => .ora
  | .oraZpx _ => .ora
  | .oraAbs _ => .ora
  | .oraAbx _ => .ora
  | .oraAby _ => .ora
  | .oraIzx _ => .ora
  | .oraIzy _ => .ora
  | .aslAcc => .asl
  | .aslZp _ => .asl
  | .aslZpx _ => .asl
  | .aslAbs _ => .asl
  | .aslAbx _ => .asl
  | .php => .php
  | .bpl _ => .bpl
  | .clc => .clc
  | .jsr _ => .jsr
  | .andImm _ => .and
  | .andZp _ => .and
  | .andZpx _ => .and
  | .andAbs _ => .and
  | .andAbx _ => .and
  | .andAby _ => .and
  | .andIzx _ => .and
  | .andIzy _ => .and
  | .bitZp _ => .bit
  | .bitAbs _ => .bit
  | .rolAcc => .rol
  | .rolZp _ => .rol
  | .rolZpx _ => .rol
  | .rolAbs _ => .rol
  | .rolAbx _ => .rol
  | .plp => .plp
  | .bmi _ => .bmi
  | .sec => .sec
  | .rti => .rti
  | .eorImm _ => .eor
  | .eorZp _ => .eor
  | .eorZpx _ => .eor
  | .eorAbs _ => .eor
  | .eorAbx _ => .eor
  | .eorAby _ => .eor
  | .eorIzx _ => .eor
  | .eorIzy _ => .eor
  | .lsrAcc => .lsr
  | .lsrZp _ => .lsr
  | .lsrZpx _ => .lsr
  | .lsrAbs _ => .lsr
  | .lsrAbx _ => .lsr
  | .pha => .pha
  | .jmpAbs _ => .jmp
  | .jmpInd _ => .jmp
  | .bvc _ => .bvc
  | .cli => .cli
  | .rts => .rts
  | .adcImm _ => .adc
  | .adcZp _ => .adc
  | .adcZpx _ => .adc
  | .adcAbs _ => .adc
  | .adcAbx _ => .adc
  | .adcAby _ => .adc
  | .adcIzx _ => .adc
  | .adcIzy _ => .adc
  | .rorAcc => .ror
  | .rorZp _ => .ror
  | .rorZpx _ => .ror
  | .rorAbs _ => .ror
  | .rorAbx _ => .ror
  | .pla => .pla
  | .bvs _ => .bvs
  | .sei => .sei
  | .staZp _ => .sta
  | .staZpx _ => .sta
  | .staAbs _ => .sta
  | .staAbx _ => .sta
  | .staAby _ => .sta
  | .staIzx _ => .sta
  | .staIzy _ => .sta
  | .styZp _ => .sty
  | .styZpx _ => .sty
  | .styAbs _ => .sty
  | .stxZp _ => .stx
  | .stxZpy _ => .stx
  | .stxAbs _ => .stx
  | .dey => .dey
  | .txa => .txa
  | .bcc _ => .bcc
  | .tya => .tya
  | .txs => .txs
  | .ldyImm _ => .ldy
  | .ldyZp _ => .ldy
  | .ldyZpx _ => .ldy
  | .ldyAbs _ => .ldy
  | .ldyAbx _ => .ldy
  | .ldaImm _ => .lda
  | .ldaZp _ => .lda
  | .ldaZpx _ => .lda
  | .ldaAbs _ => .lda
  | .ldaAbx _ => .lda
  | .ldaAby _ => .lda
  | .ldaIzx _ => .lda
  | .ldaIzy _ => .lda
  | .ldxImm _ => .ldx
  | .ldxZp _ => .ldx
  | .ldxZpy _ => .ldx
  | .ldxAbs _ => .ldx
  | .ldxAby _ => .ldx
  | .tay => .tay
  | .tax => .tax
  | .bcs _ => .bcs
  | .clv => .clv
  | .tsx => .tsx
  | .cpyImm _ => .cpy
  | .cpyZp _ => .cpy
  | .cpyAbs _ => .cpy
  | .cmpImm _ => .cmp
  | .cmpZp _ => .cmp
  | .cmpZpx _ => .cmp
  | .cmpAbs _ => .cmp
  | .cmpAbx _ => .cmp
  | .cmpAby _ => .cmp
  | .cmpIzx _ => .cmp
  | .cmpIzy _ => .cmp
  | .decZp _ => .dec
  | .decZpx _ => .dec
  | .decAbs _ => .dec
  | .decAbx _ => .dec
  | .iny => .iny
  | .dex => .dex
  | .bne _ => .bne
  | .cld => .cld
  | .cpxImm _ => .cpx
  | .cpxZp _ => .cpx
  | .cpxAbs _ => .cpx
  | .sbcImm _ => .sbc
  | .sbcZp _ => .sbc
  | .sbcZpx _ => .sbc
  | .sbcAbs _ => .sbc
  | .sbcAbx _ => .sbc
  | .sbcAby _ => .sbc
  | .sbcIzx _ => .sbc
  | .sbcIzy _ => .sbc
  | .incZp _ => .inc
  | .incZpx _ => .inc
  | .incAbs _ => .inc
  | .incAbx _ => .inc
  | .inx => .inx
  | .nop => .nop
  | .beq _ => .beq
  | .sed => .sed

/-- The addressing mode of each instruction, with its operand bytes (R74, R75). JMP abs and JSR take the mode `abs`; its
address is then the jump target (R90). -/
def Instr.mode : Instr → Mode
  | .brk => .imp
  | .oraImm v => .imm v
  | .oraZp a1 => .mem (.zp a1)
  | .oraZpx a1 => .mem (.zpx a1)
  | .oraAbs w => .mem (.abs w)
  | .oraAbx w => .mem (.abx w)
  | .oraAby w => .mem (.aby w)
  | .oraIzx a1 => .mem (.izx a1)
  | .oraIzy a1 => .mem (.izy a1)
  | .aslAcc => .acc
  | .aslZp a1 => .mem (.zp a1)
  | .aslZpx a1 => .mem (.zpx a1)
  | .aslAbs w => .mem (.abs w)
  | .aslAbx w => .mem (.abx w)
  | .php => .imp
  | .bpl d => .rel d
  | .clc => .imp
  | .jsr w => .mem (.abs w)
  | .andImm v => .imm v
  | .andZp a1 => .mem (.zp a1)
  | .andZpx a1 => .mem (.zpx a1)
  | .andAbs w => .mem (.abs w)
  | .andAbx w => .mem (.abx w)
  | .andAby w => .mem (.aby w)
  | .andIzx a1 => .mem (.izx a1)
  | .andIzy a1 => .mem (.izy a1)
  | .bitZp a1 => .mem (.zp a1)
  | .bitAbs w => .mem (.abs w)
  | .rolAcc => .acc
  | .rolZp a1 => .mem (.zp a1)
  | .rolZpx a1 => .mem (.zpx a1)
  | .rolAbs w => .mem (.abs w)
  | .rolAbx w => .mem (.abx w)
  | .plp => .imp
  | .bmi d => .rel d
  | .sec => .imp
  | .rti => .imp
  | .eorImm v => .imm v
  | .eorZp a1 => .mem (.zp a1)
  | .eorZpx a1 => .mem (.zpx a1)
  | .eorAbs w => .mem (.abs w)
  | .eorAbx w => .mem (.abx w)
  | .eorAby w => .mem (.aby w)
  | .eorIzx a1 => .mem (.izx a1)
  | .eorIzy a1 => .mem (.izy a1)
  | .lsrAcc => .acc
  | .lsrZp a1 => .mem (.zp a1)
  | .lsrZpx a1 => .mem (.zpx a1)
  | .lsrAbs w => .mem (.abs w)
  | .lsrAbx w => .mem (.abx w)
  | .pha => .imp
  | .jmpAbs w => .mem (.abs w)
  | .jmpInd w => .ind w
  | .bvc d => .rel d
  | .cli => .imp
  | .rts => .imp
  | .adcImm v => .imm v
  | .adcZp a1 => .mem (.zp a1)
  | .adcZpx a1 => .mem (.zpx a1)
  | .adcAbs w => .mem (.abs w)
  | .adcAbx w => .mem (.abx w)
  | .adcAby w => .mem (.aby w)
  | .adcIzx a1 => .mem (.izx a1)
  | .adcIzy a1 => .mem (.izy a1)
  | .rorAcc => .acc
  | .rorZp a1 => .mem (.zp a1)
  | .rorZpx a1 => .mem (.zpx a1)
  | .rorAbs w => .mem (.abs w)
  | .rorAbx w => .mem (.abx w)
  | .pla => .imp
  | .bvs d => .rel d
  | .sei => .imp
  | .staZp a1 => .mem (.zp a1)
  | .staZpx a1 => .mem (.zpx a1)
  | .staAbs w => .mem (.abs w)
  | .staAbx w => .mem (.abx w)
  | .staAby w => .mem (.aby w)
  | .staIzx a1 => .mem (.izx a1)
  | .staIzy a1 => .mem (.izy a1)
  | .styZp a1 => .mem (.zp a1)
  | .styZpx a1 => .mem (.zpx a1)
  | .styAbs w => .mem (.abs w)
  | .stxZp a1 => .mem (.zp a1)
  | .stxZpy a1 => .mem (.zpy a1)
  | .stxAbs w => .mem (.abs w)
  | .dey => .imp
  | .txa => .imp
  | .bcc d => .rel d
  | .tya => .imp
  | .txs => .imp
  | .ldyImm v => .imm v
  | .ldyZp a1 => .mem (.zp a1)
  | .ldyZpx a1 => .mem (.zpx a1)
  | .ldyAbs w => .mem (.abs w)
  | .ldyAbx w => .mem (.abx w)
  | .ldaImm v => .imm v
  | .ldaZp a1 => .mem (.zp a1)
  | .ldaZpx a1 => .mem (.zpx a1)
  | .ldaAbs w => .mem (.abs w)
  | .ldaAbx w => .mem (.abx w)
  | .ldaAby w => .mem (.aby w)
  | .ldaIzx a1 => .mem (.izx a1)
  | .ldaIzy a1 => .mem (.izy a1)
  | .ldxImm v => .imm v
  | .ldxZp a1 => .mem (.zp a1)
  | .ldxZpy a1 => .mem (.zpy a1)
  | .ldxAbs w => .mem (.abs w)
  | .ldxAby w => .mem (.aby w)
  | .tay => .imp
  | .tax => .imp
  | .bcs d => .rel d
  | .clv => .imp
  | .tsx => .imp
  | .cpyImm v => .imm v
  | .cpyZp a1 => .mem (.zp a1)
  | .cpyAbs w => .mem (.abs w)
  | .cmpImm v => .imm v
  | .cmpZp a1 => .mem (.zp a1)
  | .cmpZpx a1 => .mem (.zpx a1)
  | .cmpAbs w => .mem (.abs w)
  | .cmpAbx w => .mem (.abx w)
  | .cmpAby w => .mem (.aby w)
  | .cmpIzx a1 => .mem (.izx a1)
  | .cmpIzy a1 => .mem (.izy a1)
  | .decZp a1 => .mem (.zp a1)
  | .decZpx a1 => .mem (.zpx a1)
  | .decAbs w => .mem (.abs w)
  | .decAbx w => .mem (.abx w)
  | .iny => .imp
  | .dex => .imp
  | .bne d => .rel d
  | .cld => .imp
  | .cpxImm v => .imm v
  | .cpxZp a1 => .mem (.zp a1)
  | .cpxAbs w => .mem (.abs w)
  | .sbcImm v => .imm v
  | .sbcZp a1 => .mem (.zp a1)
  | .sbcZpx a1 => .mem (.zpx a1)
  | .sbcAbs w => .mem (.abs w)
  | .sbcAbx w => .mem (.abx w)
  | .sbcAby w => .mem (.aby w)
  | .sbcIzx a1 => .mem (.izx a1)
  | .sbcIzy a1 => .mem (.izy a1)
  | .incZp a1 => .mem (.zp a1)
  | .incZpx a1 => .mem (.zpx a1)
  | .incAbs w => .mem (.abs w)
  | .incAbx w => .mem (.abx w)
  | .inx => .imp
  | .nop => .imp
  | .beq d => .rel d
  | .sed => .imp

/-- R71: the length in bytes of the instructions of each mode. -/
def ModeName.length : ModeName → Nat
  | .imp => 1
  | .acc => 1
  | .imm => 2
  | .zp => 2
  | .zpx => 2
  | .zpy => 2
  | .abs => 3
  | .abx => 3
  | .aby => 3
  | .izx => 2
  | .izy => 2
  | .ind => 3
  | .rel => 2

/-- R71: the length of the instructions of a mode. -/
def Mode.length (m : Mode) : Nat := m.name.length

/-- R70, R71: the length of an instruction, a function of its mode. -/
def Instr.length (i : Instr) : Nat := i.mode.length

/-- What the decoder makes of an opcode byte and the two bytes after it (R8, R76). -/
inductive Decoded where
  /-- The byte has a row in the table. -/
  | recognized (i : Instr)
  /-- The byte has none; the step halts (R231). -/
  | unrecognized (op : Byte)
deriving DecidableEq, Repr

/-- Row 0x of the opcode map R74, by column. -/
def decodeRow0 (lo : Nat) (b1 b2 : Byte) : Option Instr :=
  match lo with
  | 0x0 => some .brk
  | 0x1 => some (.oraIzx b1)
  | 0x5 => some (.oraZp b1)
  | 0x6 => some (.aslZp b1)
  | 0x8 => some .php
  | 0x9 => some (.oraImm b1)
  | 0xA => some .aslAcc
  | 0xD => some (.oraAbs (ofHiLo b2 b1))
  | 0xE => some (.aslAbs (ofHiLo b2 b1))
  | _ => none

/-- Row 1x of the opcode map R74, by column. -/
def decodeRow1 (lo : Nat) (b1 b2 : Byte) : Option Instr :=
  match lo with
  | 0x0 => some (.bpl b1)
  | 0x1 => some (.oraIzy b1)
  | 0x5 => some (.oraZpx b1)
  | 0x6 => some (.aslZpx b1)
  | 0x8 => some .clc
  | 0x9 => some (.oraAby (ofHiLo b2 b1))
  | 0xD => some (.oraAbx (ofHiLo b2 b1))
  | 0xE => some (.aslAbx (ofHiLo b2 b1))
  | _ => none

/-- Row 2x of the opcode map R74, by column. -/
def decodeRow2 (lo : Nat) (b1 b2 : Byte) : Option Instr :=
  match lo with
  | 0x0 => some (.jsr (ofHiLo b2 b1))
  | 0x1 => some (.andIzx b1)
  | 0x4 => some (.bitZp b1)
  | 0x5 => some (.andZp b1)
  | 0x6 => some (.rolZp b1)
  | 0x8 => some .plp
  | 0x9 => some (.andImm b1)
  | 0xA => some .rolAcc
  | 0xC => some (.bitAbs (ofHiLo b2 b1))
  | 0xD => some (.andAbs (ofHiLo b2 b1))
  | 0xE => some (.rolAbs (ofHiLo b2 b1))
  | _ => none

/-- Row 3x of the opcode map R74, by column. -/
def decodeRow3 (lo : Nat) (b1 b2 : Byte) : Option Instr :=
  match lo with
  | 0x0 => some (.bmi b1)
  | 0x1 => some (.andIzy b1)
  | 0x5 => some (.andZpx b1)
  | 0x6 => some (.rolZpx b1)
  | 0x8 => some .sec
  | 0x9 => some (.andAby (ofHiLo b2 b1))
  | 0xD => some (.andAbx (ofHiLo b2 b1))
  | 0xE => some (.rolAbx (ofHiLo b2 b1))
  | _ => none

/-- Row 4x of the opcode map R74, by column. -/
def decodeRow4 (lo : Nat) (b1 b2 : Byte) : Option Instr :=
  match lo with
  | 0x0 => some .rti
  | 0x1 => some (.eorIzx b1)
  | 0x5 => some (.eorZp b1)
  | 0x6 => some (.lsrZp b1)
  | 0x8 => some .pha
  | 0x9 => some (.eorImm b1)
  | 0xA => some .lsrAcc
  | 0xC => some (.jmpAbs (ofHiLo b2 b1))
  | 0xD => some (.eorAbs (ofHiLo b2 b1))
  | 0xE => some (.lsrAbs (ofHiLo b2 b1))
  | _ => none

/-- Row 5x of the opcode map R74, by column. -/
def decodeRow5 (lo : Nat) (b1 b2 : Byte) : Option Instr :=
  match lo with
  | 0x0 => some (.bvc b1)
  | 0x1 => some (.eorIzy b1)
  | 0x5 => some (.eorZpx b1)
  | 0x6 => some (.lsrZpx b1)
  | 0x8 => some .cli
  | 0x9 => some (.eorAby (ofHiLo b2 b1))
  | 0xD => some (.eorAbx (ofHiLo b2 b1))
  | 0xE => some (.lsrAbx (ofHiLo b2 b1))
  | _ => none

/-- Row 6x of the opcode map R74, by column. -/
def decodeRow6 (lo : Nat) (b1 b2 : Byte) : Option Instr :=
  match lo with
  | 0x0 => some .rts
  | 0x1 => some (.adcIzx b1)
  | 0x5 => some (.adcZp b1)
  | 0x6 => some (.rorZp b1)
  | 0x8 => some .pla
  | 0x9 => some (.adcImm b1)
  | 0xA => some .rorAcc
  | 0xC => some (.jmpInd (ofHiLo b2 b1))
  | 0xD => some (.adcAbs (ofHiLo b2 b1))
  | 0xE => some (.rorAbs (ofHiLo b2 b1))
  | _ => none

/-- Row 7x of the opcode map R74, by column. -/
def decodeRow7 (lo : Nat) (b1 b2 : Byte) : Option Instr :=
  match lo with
  | 0x0 => some (.bvs b1)
  | 0x1 => some (.adcIzy b1)
  | 0x5 => some (.adcZpx b1)
  | 0x6 => some (.rorZpx b1)
  | 0x8 => some .sei
  | 0x9 => some (.adcAby (ofHiLo b2 b1))
  | 0xD => some (.adcAbx (ofHiLo b2 b1))
  | 0xE => some (.rorAbx (ofHiLo b2 b1))
  | _ => none

/-- Row 8x of the opcode map R74, by column. -/
def decodeRow8 (lo : Nat) (b1 b2 : Byte) : Option Instr :=
  match lo with
  | 0x1 => some (.staIzx b1)
  | 0x4 => some (.styZp b1)
  | 0x5 => some (.staZp b1)
  | 0x6 => some (.stxZp b1)
  | 0x8 => some .dey
  | 0xA => some .txa
  | 0xC => some (.styAbs (ofHiLo b2 b1))
  | 0xD => some (.staAbs (ofHiLo b2 b1))
  | 0xE => some (.stxAbs (ofHiLo b2 b1))
  | _ => none

/-- Row 9x of the opcode map R74, by column. -/
def decodeRow9 (lo : Nat) (b1 b2 : Byte) : Option Instr :=
  match lo with
  | 0x0 => some (.bcc b1)
  | 0x1 => some (.staIzy b1)
  | 0x4 => some (.styZpx b1)
  | 0x5 => some (.staZpx b1)
  | 0x6 => some (.stxZpy b1)
  | 0x8 => some .tya
  | 0x9 => some (.staAby (ofHiLo b2 b1))
  | 0xA => some .txs
  | 0xD => some (.staAbx (ofHiLo b2 b1))
  | _ => none

/-- Row Ax of the opcode map R74, by column. -/
def decodeRowA (lo : Nat) (b1 b2 : Byte) : Option Instr :=
  match lo with
  | 0x0 => some (.ldyImm b1)
  | 0x1 => some (.ldaIzx b1)
  | 0x2 => some (.ldxImm b1)
  | 0x4 => some (.ldyZp b1)
  | 0x5 => some (.ldaZp b1)
  | 0x6 => some (.ldxZp b1)
  | 0x8 => some .tay
  | 0x9 => some (.ldaImm b1)
  | 0xA => some .tax
  | 0xC => some (.ldyAbs (ofHiLo b2 b1))
  | 0xD => some (.ldaAbs (ofHiLo b2 b1))
  | 0xE => some (.ldxAbs (ofHiLo b2 b1))
  | _ => none

/-- Row Bx of the opcode map R74, by column. -/
def decodeRowB (lo : Nat) (b1 b2 : Byte) : Option Instr :=
  match lo with
  | 0x0 => some (.bcs b1)
  | 0x1 => some (.ldaIzy b1)
  | 0x4 => some (.ldyZpx b1)
  | 0x5 => some (.ldaZpx b1)
  | 0x6 => some (.ldxZpy b1)
  | 0x8 => some .clv
  | 0x9 => some (.ldaAby (ofHiLo b2 b1))
  | 0xA => some .tsx
  | 0xC => some (.ldyAbx (ofHiLo b2 b1))
  | 0xD => some (.ldaAbx (ofHiLo b2 b1))
  | 0xE => some (.ldxAby (ofHiLo b2 b1))
  | _ => none

/-- Row Cx of the opcode map R74, by column. -/
def decodeRowC (lo : Nat) (b1 b2 : Byte) : Option Instr :=
  match lo with
  | 0x0 => some (.cpyImm b1)
  | 0x1 => some (.cmpIzx b1)
  | 0x4 => some (.cpyZp b1)
  | 0x5 => some (.cmpZp b1)
  | 0x6 => some (.decZp b1)
  | 0x8 => some .iny
  | 0x9 => some (.cmpImm b1)
  | 0xA => some .dex
  | 0xC => some (.cpyAbs (ofHiLo b2 b1))
  | 0xD => some (.cmpAbs (ofHiLo b2 b1))
  | 0xE => some (.decAbs (ofHiLo b2 b1))
  | _ => none

/-- Row Dx of the opcode map R74, by column. -/
def decodeRowD (lo : Nat) (b1 b2 : Byte) : Option Instr :=
  match lo with
  | 0x0 => some (.bne b1)
  | 0x1 => some (.cmpIzy b1)
  | 0x5 => some (.cmpZpx b1)
  | 0x6 => some (.decZpx b1)
  | 0x8 => some .cld
  | 0x9 => some (.cmpAby (ofHiLo b2 b1))
  | 0xD => some (.cmpAbx (ofHiLo b2 b1))
  | 0xE => some (.decAbx (ofHiLo b2 b1))
  | _ => none

/-- Row Ex of the opcode map R74, by column. -/
def decodeRowE (lo : Nat) (b1 b2 : Byte) : Option Instr :=
  match lo with
  | 0x0 => some (.cpxImm b1)
  | 0x1 => some (.sbcIzx b1)
  | 0x4 => some (.cpxZp b1)
  | 0x5 => some (.sbcZp b1)
  | 0x6 => some (.incZp b1)
  | 0x8 => some .inx
  | 0x9 => some (.sbcImm b1)
  | 0xA => some .nop
  | 0xC => some (.cpxAbs (ofHiLo b2 b1))
  | 0xD => some (.sbcAbs (ofHiLo b2 b1))
  | 0xE => some (.incAbs (ofHiLo b2 b1))
  | _ => none

/-- Row Fx of the opcode map R74, by column. -/
def decodeRowF (lo : Nat) (b1 b2 : Byte) : Option Instr :=
  match lo with
  | 0x0 => some (.beq b1)
  | 0x1 => some (.sbcIzy b1)
  | 0x5 => some (.sbcZpx b1)
  | 0x6 => some (.incZpx b1)
  | 0x8 => some .sed
  | 0x9 => some (.sbcAby (ofHiLo b2 b1))
  | 0xD => some (.sbcAbx (ofHiLo b2 b1))
  | 0xE => some (.incAbx (ofHiLo b2 b1))
  | _ => none

/-- R74: the opcode map, row by high nibble and column by low nibble; `none` marks a byte with no row. `b1` and `b2`
are `arg1` and `arg2`; a two-byte operand is the little-endian `arg2:arg1` (R73). -/
def decodeTable (op b1 b2 : Byte) : Option Instr :=
  let lo := op.toNat % 16
  match op.toNat / 16 with
  | 0x0 => decodeRow0 lo b1 b2
  | 0x1 => decodeRow1 lo b1 b2
  | 0x2 => decodeRow2 lo b1 b2
  | 0x3 => decodeRow3 lo b1 b2
  | 0x4 => decodeRow4 lo b1 b2
  | 0x5 => decodeRow5 lo b1 b2
  | 0x6 => decodeRow6 lo b1 b2
  | 0x7 => decodeRow7 lo b1 b2
  | 0x8 => decodeRow8 lo b1 b2
  | 0x9 => decodeRow9 lo b1 b2
  | 0xA => decodeRowA lo b1 b2
  | 0xB => decodeRowB lo b1 b2
  | 0xC => decodeRowC lo b1 b2
  | 0xD => decodeRowD lo b1 b2
  | 0xE => decodeRowE lo b1 b2
  | 0xF => decodeRowF lo b1 b2
  | _ => none

/-- R76: `OFFICIAL_151`, the default of the parameter `RECOGNIZED_SET`: the opcode bytes of spec/opcode_table.json. -/
def officialSet : List Byte :=
  [0x00, 0x01, 0x05, 0x06, 0x08, 0x09, 0x0A, 0x0D, 0x0E]
  ++ [0x10, 0x11, 0x15, 0x16, 0x18, 0x19, 0x1D, 0x1E]
  ++ [0x20, 0x21, 0x24, 0x25, 0x26, 0x28, 0x29, 0x2A, 0x2C, 0x2D, 0x2E]
  ++ [0x30, 0x31, 0x35, 0x36, 0x38, 0x39, 0x3D, 0x3E]
  ++ [0x40, 0x41, 0x45, 0x46, 0x48, 0x49, 0x4A, 0x4C, 0x4D, 0x4E]
  ++ [0x50, 0x51, 0x55, 0x56, 0x58, 0x59, 0x5D, 0x5E]
  ++ [0x60, 0x61, 0x65, 0x66, 0x68, 0x69, 0x6A, 0x6C, 0x6D, 0x6E]
  ++ [0x70, 0x71, 0x75, 0x76, 0x78, 0x79, 0x7D, 0x7E]
  ++ [0x81, 0x84, 0x85, 0x86, 0x88, 0x8A, 0x8C, 0x8D, 0x8E]
  ++ [0x90, 0x91, 0x94, 0x95, 0x96, 0x98, 0x99, 0x9A, 0x9D]
  ++ [0xA0, 0xA1, 0xA2, 0xA4, 0xA5, 0xA6, 0xA8, 0xA9, 0xAA, 0xAC, 0xAD, 0xAE]
  ++ [0xB0, 0xB1, 0xB4, 0xB5, 0xB6, 0xB8, 0xB9, 0xBA, 0xBC, 0xBD, 0xBE]
  ++ [0xC0, 0xC1, 0xC4, 0xC5, 0xC6, 0xC8, 0xC9, 0xCA, 0xCC, 0xCD, 0xCE]
  ++ [0xD0, 0xD1, 0xD5, 0xD6, 0xD8, 0xD9, 0xDD, 0xDE]
  ++ [0xE0, 0xE1, 0xE4, 0xE5, 0xE6, 0xE8, 0xE9, 0xEA, 0xEC, 0xED, 0xEE]
  ++ [0xF0, 0xF1, 0xF5, 0xF6, 0xF8, 0xF9, 0xFD, 0xFE]

/-- R76: the decoder for a given `RECOGNIZED_SET`. A byte outside the set, or with no row in the table, is
unrecognized. -/
def decodeIn (set : List Byte) (op b1 b2 : Byte) : Decoded :=
  if set.contains op then
    match decodeTable op b1 b2 with
    | some i => .recognized i
    | none => .unrecognized op
  else .unrecognized op

/-- R8, R76: the decoder with the default `RECOGNIZED_SET = OFFICIAL_151`. -/
def decodeBytes (op b1 b2 : Byte) : Decoded := decodeIn officialSet op b1 b2

/-- Why a list of bytes does not start with an instruction. -/
inductive DecodeError where
  /-- The list ends before the instruction does. -/
  | truncated
  /-- The first byte is outside `OFFICIAL_151` (R76). -/
  | unrecognizedOpcode (op : Byte)
deriving DecidableEq, Repr

/-- The first instruction of a list of bytes, with the bytes after it: its length is known from the opcode byte alone
(R72). -/
def decode : List Byte → Except DecodeError (Instr × List Byte)
  | [] => .error .truncated
  | op :: rest =>
    match decodeBytes op (rest.getD 0 0) (rest.getD 1 0) with
    | .unrecognized b => .error (.unrecognizedOpcode b)
    | .recognized i =>
      if i.length ≤ rest.length + 1 then .ok (i, rest.drop (i.length - 1)) else .error .truncated

/-- The instruction in the `nbits` low bits of `w`, numbered as spec/opcode_table.json numbers them (bit 0 is the least
significant bit of the opcode byte, and the second byte is bits 15 to 8); the bits above `nbits` are 0. -/
def decodeTableWord (nbits w : Nat) : Option Instr :=
  let u := w % 2 ^ nbits
  match decodeBytes (BitVec.ofNat 8 u) (BitVec.ofNat 8 (u / 256)) (BitVec.ofNat 8 (u / 65536)) with
  | .recognized i => some i
  | .unrecognized _ => none

/-- R75: the opcode byte of each instruction. -/
def Instr.opcode : Instr → Byte
  | .brk => 0x00
  | .oraImm _ => 0x09
  | .oraZp _ => 0x05
  | .oraZpx _ => 0x15
  | .oraAbs _ => 0x0D
  | .oraAbx _ => 0x1D
  | .oraAby _ => 0x19
  | .oraIzx _ => 0x01
  | .oraIzy _ => 0x11
  | .aslAcc => 0x0A
  | .aslZp _ => 0x06
  | .aslZpx _ => 0x16
  | .aslAbs _ => 0x0E
  | .aslAbx _ => 0x1E
  | .php => 0x08
  | .bpl _ => 0x10
  | .clc => 0x18
  | .jsr _ => 0x20
  | .andImm _ => 0x29
  | .andZp _ => 0x25
  | .andZpx _ => 0x35
  | .andAbs _ => 0x2D
  | .andAbx _ => 0x3D
  | .andAby _ => 0x39
  | .andIzx _ => 0x21
  | .andIzy _ => 0x31
  | .bitZp _ => 0x24
  | .bitAbs _ => 0x2C
  | .rolAcc => 0x2A
  | .rolZp _ => 0x26
  | .rolZpx _ => 0x36
  | .rolAbs _ => 0x2E
  | .rolAbx _ => 0x3E
  | .plp => 0x28
  | .bmi _ => 0x30
  | .sec => 0x38
  | .rti => 0x40
  | .eorImm _ => 0x49
  | .eorZp _ => 0x45
  | .eorZpx _ => 0x55
  | .eorAbs _ => 0x4D
  | .eorAbx _ => 0x5D
  | .eorAby _ => 0x59
  | .eorIzx _ => 0x41
  | .eorIzy _ => 0x51
  | .lsrAcc => 0x4A
  | .lsrZp _ => 0x46
  | .lsrZpx _ => 0x56
  | .lsrAbs _ => 0x4E
  | .lsrAbx _ => 0x5E
  | .pha => 0x48
  | .jmpAbs _ => 0x4C
  | .jmpInd _ => 0x6C
  | .bvc _ => 0x50
  | .cli => 0x58
  | .rts => 0x60
  | .adcImm _ => 0x69
  | .adcZp _ => 0x65
  | .adcZpx _ => 0x75
  | .adcAbs _ => 0x6D
  | .adcAbx _ => 0x7D
  | .adcAby _ => 0x79
  | .adcIzx _ => 0x61
  | .adcIzy _ => 0x71
  | .rorAcc => 0x6A
  | .rorZp _ => 0x66
  | .rorZpx _ => 0x76
  | .rorAbs _ => 0x6E
  | .rorAbx _ => 0x7E
  | .pla => 0x68
  | .bvs _ => 0x70
  | .sei => 0x78
  | .staZp _ => 0x85
  | .staZpx _ => 0x95
  | .staAbs _ => 0x8D
  | .staAbx _ => 0x9D
  | .staAby _ => 0x99
  | .staIzx _ => 0x81
  | .staIzy _ => 0x91
  | .styZp _ => 0x84
  | .styZpx _ => 0x94
  | .styAbs _ => 0x8C
  | .stxZp _ => 0x86
  | .stxZpy _ => 0x96
  | .stxAbs _ => 0x8E
  | .dey => 0x88
  | .txa => 0x8A
  | .bcc _ => 0x90
  | .tya => 0x98
  | .txs => 0x9A
  | .ldyImm _ => 0xA0
  | .ldyZp _ => 0xA4
  | .ldyZpx _ => 0xB4
  | .ldyAbs _ => 0xAC
  | .ldyAbx _ => 0xBC
  | .ldaImm _ => 0xA9
  | .ldaZp _ => 0xA5
  | .ldaZpx _ => 0xB5
  | .ldaAbs _ => 0xAD
  | .ldaAbx _ => 0xBD
  | .ldaAby _ => 0xB9
  | .ldaIzx _ => 0xA1
  | .ldaIzy _ => 0xB1
  | .ldxImm _ => 0xA2
  | .ldxZp _ => 0xA6
  | .ldxZpy _ => 0xB6
  | .ldxAbs _ => 0xAE
  | .ldxAby _ => 0xBE
  | .tay => 0xA8
  | .tax => 0xAA
  | .bcs _ => 0xB0
  | .clv => 0xB8
  | .tsx => 0xBA
  | .cpyImm _ => 0xC0
  | .cpyZp _ => 0xC4
  | .cpyAbs _ => 0xCC
  | .cmpImm _ => 0xC9
  | .cmpZp _ => 0xC5
  | .cmpZpx _ => 0xD5
  | .cmpAbs _ => 0xCD
  | .cmpAbx _ => 0xDD
  | .cmpAby _ => 0xD9
  | .cmpIzx _ => 0xC1
  | .cmpIzy _ => 0xD1
  | .decZp _ => 0xC6
  | .decZpx _ => 0xD6
  | .decAbs _ => 0xCE
  | .decAbx _ => 0xDE
  | .iny => 0xC8
  | .dex => 0xCA
  | .bne _ => 0xD0
  | .cld => 0xD8
  | .cpxImm _ => 0xE0
  | .cpxZp _ => 0xE4
  | .cpxAbs _ => 0xEC
  | .sbcImm _ => 0xE9
  | .sbcZp _ => 0xE5
  | .sbcZpx _ => 0xF5
  | .sbcAbs _ => 0xED
  | .sbcAbx _ => 0xFD
  | .sbcAby _ => 0xF9
  | .sbcIzx _ => 0xE1
  | .sbcIzy _ => 0xF1
  | .incZp _ => 0xE6
  | .incZpx _ => 0xF6
  | .incAbs _ => 0xEE
  | .incAbx _ => 0xFE
  | .inx => 0xE8
  | .nop => 0xEA
  | .beq _ => 0xF0
  | .sed => 0xF8

/-- R71, R73: the operand bytes of a mode that resolves to a bus cell, `arg1` first. -/
def MemMode.operandBytes : MemMode → List Byte
  | .zp a1 => [a1]
  | .zpx a1 => [a1]
  | .zpy a1 => [a1]
  | .abs w => [loByte w, hiByte w]
  | .abx w => [loByte w, hiByte w]
  | .aby w => [loByte w, hiByte w]
  | .izx a1 => [a1]
  | .izy a1 => [a1]

/-- R71, R73: the operand bytes of a mode, `arg1` first: the low byte of a 16-bit operand stands before its high byte. -/
def Mode.operandBytes : Mode → List Byte
  | .imp => []
  | .acc => []
  | .imm v => [v]
  | .mem m => m.operandBytes
  | .ind w => [loByte w, hiByte w]
  | .rel d => [d]

/-- R70: the bytes of an instruction, at consecutive addresses: the opcode, then `arg1`, then `arg2`. -/
def encode (i : Instr) : List Byte := i.opcode :: i.mode.operandBytes

end Sys2Proof
end

