-- ==== Sys2Proof/Machine/Memory.lean ====
section
/-! DEFINITION. The bus contents (20_memory.md R50 to R52) as a canonical list of cells, and reading and writing them as
plain 64 KiB RAM. -/

namespace Sys2Proof.Machine

/-- The bus contents: pairs of an address and the byte it holds. In canonical form (`Memory.wf`) the addresses rise
strictly and no listed byte equals `blankByte`. -/
abbrev Memory := List Host.Cell

/-- What a cell that is not listed reads as. DESIGN CHOICE (log entry 1, unsafe): the core defines no value for a cell
nobody loaded and forbids a default of zero (R263, decision D22); 0x02 is an unrecognized opcode. -/
def blankByte : Byte := 0x02

/-- The bus with no cell listed. -/
def Memory.blank : Memory := []

/-- R51, R52: `read_byte` at the address of number `a`. -/
def Memory.get : Memory → Nat → Byte
  | [], _ => blankByte
  | (k, v) :: m, a => if a = k then v else Memory.get m a

/-- List `v` at `a`, keeping the addresses in rising order. -/
def Memory.insert : Memory → Nat → Byte → Memory
  | [], a, v => [(a, v)]
  | (k, w) :: m, a, v =>
    if a < k then (a, v) :: (k, w) :: m
    else if a = k then (a, v) :: m
    else (k, w) :: Memory.insert m a v

/-- Unlist the address `a`. -/
def Memory.erase : Memory → Nat → Memory
  | [], _ => []
  | (k, w) :: m, a => if a = k then Memory.erase m a else (k, w) :: Memory.erase m a

/-- R51: `read_byte`, total over the 16-bit addresses. -/
def Memory.read (m : Memory) (a : Addr) : Byte := m.get a.toNat

/-- R51, R52: `write_byte`: cell `a` becomes `v` and no other cell changes. A write of `blankByte` unlists the cell, so
that equal memories are equal lists. -/
def Memory.write (m : Memory) (a : Addr) (v : Byte) : Memory :=
  if v = blankByte then m.erase a.toNat else m.insert a.toNat v

/-- Every listed address is at least `lo`, the addresses rise strictly and lie in the 16-bit space, and no listed byte is
`blankByte`. -/
def Memory.wfFrom : Nat → Memory → Bool
  | _, [] => true
  | lo, (k, v) :: m => decide (lo ≤ k) && decide (k < 65536) && decide (v ≠ blankByte) && Memory.wfFrom (k + 1) m

/-- The canonical form of the bus contents. -/
def Memory.wf (m : Memory) : Bool := Memory.wfFrom 0 m

end Sys2Proof.Machine
end

