-- ==== Sys2Proof/Config.lean ====
section
/-! DEFINITION. The parameters of the model that the spec leaves open (00_scope.md R15). Their defaults are
`Sys2Proof.Machine.standardConfig` (Machine/Parameters.lean). The fifth parameter, `INIT_MEM`, is the bus contents that
`Sys2Proof.Machine.State.resetWith` takes. -/

namespace Sys2Proof

/-- `BUS`, the bus behind the contract of 20_memory.md R51: total operations on the bus contents, one byte each. A read
may have a side effect of the bus's own (R58), and a write may do what the bus makes of it (R52). The contents are plain
data: a bus with registers of its own keeps them in cells numbered 65536 and up (log entry 8). -/
structure Bus where
  /-- `read_byte`: the byte a read of the address answers (R51). -/
  read : Machine.Memory → Addr → Byte
  /-- The bus contents a read of the address leaves (R58). -/
  afterRead : Machine.Memory → Addr → Machine.Memory
  /-- `write_byte`: the bus contents a write leaves (R51). -/
  write : Machine.Memory → Addr → Byte → Machine.Memory

/-- R51: what the contract asks of writes: a write is visible to the next read of the same address. -/
def Bus.ShowsWrites (b : Bus) : Prop := ∀ m a v, b.read (b.write m a v) a = v

/-- R15: the parameters a model takes as arguments. -/
structure Config where
  /-- `RECOGNIZED_SET`: the opcode bytes that execute; every other byte halts (R2, R76, decision D2). -/
  recognizedSet : List Byte
  /-- `TXS_SETS_NZ`: whether TXS writes N and Z (R180, decision D16). -/
  txsSetsNz : Bool
  /-- `BRK_VECTOR`: the address of the low byte of BRK's target (R203, decision D12). -/
  brkVector : Addr
  /-- `BUS`: the bus every access goes through (R52, decision D3). -/
  bus : Bus

end Sys2Proof
end

