-- ==== Sys2Proof/Machine/Parameters.lean ====
section
/-! DEFINITION. The default values of the model's parameters (00_scope.md R15). -/

namespace Sys2Proof.Machine

/-- R52: plain RAM, the default of `BUS` (decision D3): a read answers the cell and changes nothing, a write sets it. -/
def ramBus : Bus where
  read := Memory.read
  afterRead m _ := m
  write := Memory.write

/-- R15: the defaults, which the spec records as its own decisions D2, D16, D12 and D3. -/
def standardConfig : Config where
  recognizedSet := officialSet
  txsSetsNz := true
  brkVector := 0xFFFE
  bus := ramBus

end Sys2Proof.Machine
end

