-- ==== Sys2Proof/Machine/State.lean ====
section
/-! DEFINITION. The state of the machine: the core's state record (10_state.md R20), the fault record (60_exceptions.md
R231) and the bus contents paired with them (R20, R50); and the state after reset. -/

namespace Sys2Proof.Machine

/-- R231: the fault record `UnrecognizedOpcode(pc, opcode)`, the one failure kind of the core (R230). It has no numeric
cause code (decision D23). -/
structure FaultRecord where
  /-- The address of the opcode byte. -/
  pc : Addr
  /-- The opcode byte with no table entry. -/
  opcode : Byte
deriving DecidableEq, Repr

/-- The whole machine: the core's registers, flags and `halted` bit (R20), the fault record held while halted (R231,
R234), and the bus (R50, R52). -/
structure State where
  /-- `A`, the accumulator (R22). -/
  a : Byte
  /-- `X`, an index register (R22). -/
  x : Byte
  /-- `Y`, an index register (R22). -/
  y : Byte
  /-- `SP`, the low byte of the stack address `0x0100 + SP` (R23). -/
  sp : Byte
  /-- `PC`, the address of the next opcode to fetch (R24). -/
  pc : Addr
  /-- `C`, carry (R27). -/
  flagC : Bool
  /-- `Z`, zero (R27). -/
  flagZ : Bool
  /-- `I`, interrupt_disable, which masks nothing (R28, R236). -/
  flagI : Bool
  /-- `D`, decimal, which no instruction reads (R28). -/
  flagD : Bool
  /-- `V`, overflow (R27). -/
  flagV : Bool
  /-- `N`, sign (R27). -/
  flagN : Bool
  /-- True once an unrecognized opcode has been fetched; terminal (R32). -/
  halted : Bool
  /-- The record of the fault that halted the core; `none` while it runs (R231, R234). -/
  faultRecord : Option FaultRecord
  /-- The bus contents (R50, R52). -/
  mem : Memory
deriving DecidableEq, Repr

/-- Why a step has no next state. -/
inductive Fault where
  /-- Raised by `step` on a core that is already Halted: such a core has no step, and the host is handed the fault record
  (R234, R245; treatment `stuck` of U3). Safe: the hardware does nothing there either. No instruction raises it. -/
  | halted (record : Option FaultRecord)
deriving DecidableEq, Repr

/-- Why an instruction has no meaning in this model. -/
inductive Refusal where
  /-- An arm of `exec` with no meaning yet; no arm is refused in this model. Safe: the model stops. -/
  | notModelled (mnemonic : String)
deriving DecidableEq, Repr

/-- The outcome of an instruction or of a step. -/
abbrev Result := Host.Outcome State Fault Refusal

/-- R36, R260: the state `reset()` leaves when the bus `b` holds `m` (the parameter `INIT_MEM`): every register and flag
0 but `SP = 0xFF`, `PC` from the reset vector (low byte at 0xFFFC, read first, then the high byte at 0xFFFD), `halted`
false, and the bus as the two reads leave it: RAM as it was. The fault record is gone with `halted` (DEDUCED, log
entry 3). -/
def State.resetWith (m : Memory) (b : Bus := ramBus) : State where
  a := 0x00
  x := 0x00
  y := 0x00
  sp := 0xFF
  pc := ofHiLo (b.read (b.afterRead m 0xFFFC) 0xFFFD) (b.read m 0xFFFC)
  flagC := false
  flagZ := false
  flagI := false
  flagD := false
  flagV := false
  flagN := false
  halted := false
  faultRecord := none
  mem := b.afterRead (b.afterRead m 0xFFFC) 0xFFFD

/-- R36: the machine right after reset with a bus nobody has loaded (log entry 1). -/
def State.reset : State := State.resetWith Memory.blank

end Sys2Proof.Machine
end

