-- ==== Sys2Proof/Machine/Flags.lean ====
section
/-! DEFINITION. The `alu_6502` block: pure functions from bytes to a result byte and flag values (42_alu.md R130 to R133,
43_shift_incdec.md R150 to R153), and the packing of the flags into the status byte (10_state.md R29, R30). -/

namespace Sys2Proof.Machine

/-- R130: `N = (r >= 0x80)`. -/
def signOf (r : Byte) : Bool := decide (0x80 ≤ r.toNat)

/-- R130: `Z = (r = 0)`. -/
def zeroOf (r : Byte) : Bool := r == 0#8

/-- The outputs of the adder (R131). -/
structure AddResult where
  value : Byte
  c : Bool
  v : Bool
deriving DecidableEq, Repr

/-- R131: `adc(a, m, c)`, always binary (R144). `N` and `Z` are those of the result byte (R130). -/
def adc (a m : Byte) (c : Bool) : AddResult :=
  let sum := a.toNat + m.toNat + c.toNat
  let r : Byte := BitVec.ofNat 8 sum
  { value := r
    c := decide (0xFF < sum)
    v := (a ^^^ r) &&& (m ^^^ r) &&& 0x80#8 != 0#8 }

/-- The flags a compare writes (R132). -/
structure CompareFlags where
  c : Bool
  z : Bool
  n : Bool
deriving DecidableEq, Repr

/-- R132: `cmp(a, b)`: an unsigned comparison; `N` is taken from the difference modulo 256. -/
def cmp (a b : Byte) : CompareFlags :=
  { c := decide (b.toNat ≤ a.toNat)
    z := a == b
    n := signOf (a - b) }

/-- The flags BIT writes (R133). -/
structure BitFlags where
  z : Bool
  v : Bool
  n : Bool
deriving DecidableEq, Repr

/-- R133: `bit(a, m)`. -/
def bitTest (a m : Byte) : BitFlags :=
  { z := zeroOf (m &&& a)
    v := m.getLsbD 6
    n := m.getLsbD 7 }

/-- The outputs of a shift or rotate (R150 to R153). -/
structure ShiftResult where
  value : Byte
  c : Bool
deriving DecidableEq, Repr

/-- R150: `asl(old)`. -/
def asl (old : Byte) : ShiftResult := { value := old <<< 1, c := old.getLsbD 7 }

/-- R151: `lsr(old)`. -/
def lsr (old : Byte) : ShiftResult := { value := old >>> 1, c := old.getLsbD 0 }

/-- R152: `rol(old, c)`. -/
def rol (old : Byte) (c : Bool) : ShiftResult := { value := (old <<< 1) ||| ofBit c, c := old.getLsbD 7 }

/-- R153: `ror(old, c)`. -/
def ror (old : Byte) (c : Bool) : ShiftResult := { value := (ofBit c <<< 7) ||| (old >>> 1), c := old.getLsbD 0 }

/-- R29: the status byte that PHP and BRK push: N in bit 7, V in 6, I in 2, Z in 1, C in 0; bits 5 to 3 are 0 and D is
not packed. -/
def packStatus (s : State) : Byte :=
  (ofBit s.flagN <<< 7) ||| (ofBit s.flagV <<< 6) ||| (ofBit s.flagI <<< 2) ||| (ofBit s.flagZ <<< 1) ||| ofBit s.flagC

/-- R30: the flags a pulled status byte writes; bits 5 to 3 are ignored and D is unchanged (decision D11). -/
def unpackStatus (p : Byte) (s : State) : State :=
  { s with
    flagN := p.getLsbD 7
    flagV := p.getLsbD 6
    flagI := p.getLsbD 2
    flagZ := p.getLsbD 1
    flagC := p.getLsbD 0 }

end Sys2Proof.Machine
end

