-- ==== Sys2Proof/Machine/Ops.lean ====
section
/-! DEFINITION. The named operations over registers and the bus: register and flag writes (10_state.md), bus accesses
(20_memory.md), the stack manager (44_transfer_stack.md R170 to R173), the next `PC` (R25), the halt on an unrecognized
opcode (60_exceptions.md R231), and the entry to and return from a software break (R238, R239). An operation that reads
or writes the bus takes the parameter `BUS`, plain RAM unless another is given (00_scope.md R15). -/

namespace Sys2Proof.Machine

/-- `A <- v`. -/
def State.setA (s : State) (v : Byte) : State := { s with a := v }

/-- `X <- v`. -/
def State.setX (s : State) (v : Byte) : State := { s with x := v }

/-- `Y <- v`. -/
def State.setY (s : State) (v : Byte) : State := { s with y := v }

/-- `SP <- v`. -/
def State.setSp (s : State) (v : Byte) : State := { s with sp := v }

/-- `PC <- w`. -/
def State.setPc (s : State) (w : Addr) : State := { s with pc := w }

/-- `C <- b`. -/
def State.setC (s : State) (b : Bool) : State := { s with flagC := b }

/-- `I <- b`. -/
def State.setI (s : State) (b : Bool) : State := { s with flagI := b }

/-- `D <- b`. -/
def State.setD (s : State) (b : Bool) : State := { s with flagD := b }

/-- `V <- b`. -/
def State.setV (s : State) (b : Bool) : State := { s with flagV := b }

/-- `(N, Z) <- nz(r)` (R130). -/
def State.setNZ (s : State) (r : Byte) : State := { s with flagN := signOf r, flagZ := zeroOf r }

/-- R17, R51: the byte `MemRead(a, 1)` answers. -/
def State.readByte (s : State) (a : Addr) (b : Bus := ramBus) : Byte := b.read s.mem a

/-- R58: the state `MemRead(a, 1)` leaves; on RAM it is `s`. -/
def State.afterRead (s : State) (a : Addr) (b : Bus := ramBus) : State := { s with mem := b.afterRead s.mem a }

/-- R17, R51: `MemWrite(a, 1, v)`. -/
def State.writeByte (s : State) (a : Addr) (v : Byte) (b : Bus := ramBus) : State := { s with mem := b.write s.mem a v }

/-- R25: the sequential advance `PC <- wrap16(PC + len)`. -/
def State.advance (s : State) (len : Nat) : State := s.setPc (s.pc + BitVec.ofNat 16 len)

/-- R23: the bus address `0x0100 + SP` of a stack byte. -/
def stackAddr (sp : Byte) : Addr := 0x0100#16 + zext16 sp

/-- R170: `push8(v)`: write at `0x0100 + SP`, then decrement `SP`, which wraps. -/
def State.push8 (s : State) (v : Byte) (b : Bus := ramBus) : State :=
  (s.writeByte (stackAddr s.sp) v b).setSp (s.sp - 1)

/-- R171: the byte `pop8()` returns: the cell at `0x0100 + wrap8(SP + 1)`. -/
def State.pop8Value (s : State) (b : Bus := ramBus) : Byte := s.readByte (stackAddr (s.sp + 1)) b

/-- R171: the state `pop8()` leaves: `SP` incremented, which wraps; the byte is not erased. -/
def State.pop8 (s : State) (b : Bus := ramBus) : State := (s.afterRead (stackAddr (s.sp + 1)) b).setSp (s.sp + 1)

/-- R172: `push16(v)`: the high byte first, then the low byte. -/
def State.push16 (s : State) (w : Addr) (b : Bus := ramBus) : State := (s.push8 (hiByte w) b).push8 (loByte w) b

/-- R173: the value `pop16()` returns: the low byte is popped first, then the high byte. -/
def State.pop16Value (s : State) (b : Bus := ramBus) : Addr := ofHiLo ((s.pop8 b).pop8Value b) (s.pop8Value b)

/-- R173: the state `pop16()` leaves. -/
def State.pop16 (s : State) (b : Bus := ramBus) : State := (s.pop8 b).pop8 b

/-- R231, R238: an unrecognized opcode `op` halts the core: `halted` is set and the fault record made; `PC`, every other
register and flag and the bus stay as they were. Nothing is pushed and no vector is read. -/
def raiseUnrecognized (op : Byte) (s : State) : State :=
  { s with halted := true, faultRecord := some { pc := s.pc, opcode := op } }

/-- R203, R238: the entry of a software break, the core's one vectored transfer: push `PC + 2`, push the status byte,
set `I`, and load `PC` from the two cells at `vector`, low byte first (read after the pushes, R56). -/
def enterBreak (vector : Addr) (s : State) (b : Bus := ramBus) : State :=
  let pushed := ((s.push16 (s.pc + 2) b).push8 (packStatus s) b).setI true
  let lowRead := pushed.afterRead vector b
  (lowRead.afterRead (vector + 1) b).setPc (ofHiLo (lowRead.readByte (vector + 1) b) (pushed.readByte vector b))

/-- R204, R239: the return from a break: pull the status byte, then pull `PC`, with no `+1`. -/
def returnFromBreak (s : State) (b : Bus := ramBus) : State :=
  let unpacked := unpackStatus (s.pop8Value b) (s.pop8 b)
  (unpacked.pop16 b).setPc (unpacked.pop16Value b)

end Sys2Proof.Machine
end

