-- ==== Sys2Proof/Machine/Operands.lean ====
section
/-! DEFINITION. The addressing-mode resolver (40_addressing.md): effective addresses, the operand of each mode, the
operand value of a read-class instruction (R104) and the addressable handle of a read-modify-write one (R92, R105). What
reads the bus comes in two parts: the value, and the state its reads leave, which on RAM is the state itself (20_memory.md
R56, R58). -/

namespace Sys2Proof.Machine

/-- R100: the 16-bit pointer in the zero page whose low byte is at `p`; its high byte is at `(p + 1) & 0xFF`. -/
def zeroPagePointer (p : Byte) (s : State) (b : Bus := ramBus) : Addr :=
  ofHiLo ((s.afterRead (zext16 p) b).readByte (zext16 (p + 1)) b) (s.readByte (zext16 p) b)

/-- R56 step 2: the state the two reads of a zero-page pointer leave, the low byte's read first. -/
def afterPointer (p : Byte) (s : State) (b : Bus := ramBus) : State :=
  (s.afterRead (zext16 p) b).afterRead (zext16 (p + 1)) b

/-- R94 to R101: the effective address of each mode that resolves to a bus cell. -/
def effectiveAddress (m : MemMode) (s : State) (b : Bus := ramBus) : Addr :=
  match m with
  | .zp a1 => zext16 a1
  | .zpx a1 => zext16 (a1 + s.x)
  | .zpy a1 => zext16 (a1 + s.y)
  | .abs w => w
  | .abx w => w + zext16 s.x
  | .aby w => w + zext16 s.y
  | .izx a1 => zeroPagePointer (a1 + s.x) s b
  | .izy a1 => zeroPagePointer a1 s b + zext16 s.y

/-- R56 step 2: the state that resolving the effective address leaves: only the indirect modes read. -/
def afterAddress (m : MemMode) (s : State) (b : Bus := ramBus) : State :=
  match m with
  | .izx a1 => afterPointer (a1 + s.x) s b
  | .izy a1 => afterPointer a1 s b
  | .zp _ | .zpx _ | .zpy _ | .abs _ | .abx _ | .aby _ => s

/-- R102: the target of JMP indirect. The pointer's high byte is read from the page of its low byte: the low byte of the
address wraps from 0xFF to 0x00. -/
def indirectTarget (w : Addr) (s : State) (b : Bus := ramBus) : Addr :=
  ofHiLo ((s.afterRead w b).readByte (ofHiLo (hiByte w) (loByte w + 1)) b) (s.readByte w b)

/-- R56 step 2: the state the two reads of JMP indirect leave, the low byte's read first. -/
def afterIndirect (w : Addr) (s : State) (b : Bus := ramBus) : State :=
  (s.afterRead w b).afterRead (ofHiLo (hiByte w) (loByte w + 1)) b

/-- R9: what the resolver returns. -/
inductive Operand where
  /-- Implied: no operand. -/
  | none
  /-- An immediate value. -/
  | imm (v : Byte)
  /-- The accumulator handle. -/
  | acc
  /-- The handle of a bus cell. -/
  | mem (ea : Addr)
  /-- A branch displacement. -/
  | rel (d : Byte)
  /-- A jump target. -/
  | target (t : Addr)
deriving DecidableEq, Repr

/-- R90: `resolve`. It reads only pointer bytes and writes nothing. -/
def resolve (m : Mode) (s : State) (b : Bus := ramBus) : Operand :=
  match m with
  | .imp => .none
  | .acc => .acc
  | .imm v => .imm v
  | .mem mm => .mem (effectiveAddress mm s b)
  | .ind w => .target (indirectTarget w s b)
  | .rel d => .rel d

/-- R56 step 2: the state the resolver's reads leave. -/
def afterResolve (m : Mode) (s : State) (b : Bus := ramBus) : State :=
  match m with
  | .mem mm => afterAddress mm s b
  | .ind w => afterIndirect w s b
  | .imp | .acc | .imm _ | .rel _ => s

/-- R104: the operand value `M`, which the spec defines for an immediate and for a bus cell. -/
def operandValue (o : Operand) (s : State) (b : Bus := ramBus) : Option Byte :=
  match o with
  | .imm v => some v
  | .mem ea => some (s.readByte ea b)
  | .none | .acc | .rel _ | .target _ => Option.none

/-- The operand of a read-class instruction: an immediate or a bus cell (R104). -/
inductive Source where
  | imm (v : Byte)
  | mem (m : MemMode)
deriving DecidableEq, Repr

/-- The addressing mode of a source operand. -/
def Source.mode : Source → Mode
  | .imm v => .imm v
  | .mem m => .mem m

/-- R104: the value `M` of a source operand; a bus cell is read once, after the address is resolved. -/
def Source.value (src : Source) (s : State) (b : Bus := ramBus) : Byte :=
  match src with
  | .imm v => v
  | .mem m => (afterAddress m s b).readByte (effectiveAddress m s b) b

/-- R56: the state that reading a source operand leaves. -/
def Source.after (src : Source) (s : State) (b : Bus := ramBus) : State :=
  match src with
  | .imm _ => s
  | .mem m => (afterAddress m s b).afterRead (effectiveAddress m s b) b

/-- R71: the length of an instruction with this operand. -/
def Source.length (src : Source) : Nat := src.mode.length

/-- R71: the length of an instruction with this operand. -/
def memLength (m : MemMode) : Nat := (Mode.mem m).length

/-- R17, R51: an addressable handle: read-and-rewrite access to one byte. -/
inductive Handle where
  /-- The accumulator (R92). -/
  | acc
  /-- A bus cell. -/
  | mem (ea : Addr)
deriving DecidableEq, Repr

/-- R17: the byte `h.read()` answers. -/
def Handle.read (h : Handle) (s : State) (b : Bus := ramBus) : Byte :=
  match h with
  | .acc => s.a
  | .mem ea => s.readByte ea b

/-- R58, R92: the state `h.read()` leaves; the accumulator's handle makes no bus access. -/
def Handle.afterRead (h : Handle) (s : State) (b : Bus := ramBus) : State :=
  match h with
  | .acc => s
  | .mem ea => s.afterRead ea b

/-- R17: `h.write(v)`. -/
def Handle.write (h : Handle) (v : Byte) (s : State) (b : Bus := ramBus) : State :=
  match h with
  | .acc => s.setA v
  | .mem ea => s.writeByte ea v b

/-- The operand of a read-modify-write instruction: the accumulator or a bus cell (R105). -/
inductive Target where
  | acc
  | mem (m : MemMode)
deriving DecidableEq, Repr

/-- The addressing mode of a target operand. -/
def Target.mode : Target → Mode
  | .acc => .acc
  | .mem m => .mem m

/-- R105: the handle of a target operand. -/
def Target.handle (t : Target) (s : State) (b : Bus := ramBus) : Handle :=
  match t with
  | .acc => .acc
  | .mem m => .mem (effectiveAddress m s b)

/-- R56 step 2: the state that resolving a target operand leaves. -/
def Target.afterResolve (t : Target) (s : State) (b : Bus := ramBus) : State :=
  match t with
  | .acc => s
  | .mem m => afterAddress m s b

/-- R71: the length of an instruction with this operand. -/
def Target.length (t : Target) : Nat := t.mode.length

end Sys2Proof.Machine
end

