-- ==== Sys2Proof/Machine/Alu.lean ====
section
/-! DEFINITION. Arithmetic, logic, compare and BIT: ADC, SBC, AND, ORA, EOR, CMP, CPX, CPY, BIT (42_alu.md). -/

namespace Sys2Proof.Machine

/-- R134, R135: `(A, C, V, N, Z) <- adc(A, m, C)`, then `PC` past the instruction. -/
def addOp (m : Byte) (len : Nat) (s : State) : Result :=
  let r := adc s.a m s.flagC
  .next (((((s.setA r.value).setC r.c).setV r.v).setNZ r.value).advance len)

/-- R134: ADC adds `M`. `D` is not read (R144). -/
def adcOp (src : Source) (s : State) (b : Bus := ramBus) : Result := addOp (src.value s b) src.length (src.after s b)

/-- R135: SBC adds `M ^ 0xFF` (decision D9). -/
def sbcOp (src : Source) (s : State) (b : Bus := ramBus) : Result :=
  addOp (src.value s b ^^^ 0xFF#8) src.length (src.after s b)

/-- R136 to R138: `A <- r; (N, Z) <- nz(A)`. -/
def logicOp (r : Byte) (len : Nat) (s : State) : Result :=
  .next (((s.setA r).setNZ r).advance len)

/-- R136: `A & M`. -/
def andOp (src : Source) (s : State) (b : Bus := ramBus) : Result :=
  logicOp (s.a &&& src.value s b) src.length (src.after s b)

/-- R137: `A | M`. -/
def oraOp (src : Source) (s : State) (b : Bus := ramBus) : Result :=
  logicOp (s.a ||| src.value s b) src.length (src.after s b)

/-- R138: `A ^ M`. -/
def eorOp (src : Source) (s : State) (b : Bus := ramBus) : Result :=
  logicOp (s.a ^^^ src.value s b) src.length (src.after s b)

/-- R139 to R141: `(C, Z, N) <- cmp(r, M)` for a register `r`, which is unchanged. -/
def compareOp (r : Byte) (src : Source) (s : State) (b : Bus := ramBus) : Result :=
  let f := cmp r (src.value s b)
  .next ({ src.after s b with flagC := f.c, flagZ := f.z, flagN := f.n }.advance src.length)

/-- R142: `(Z, V, N) <- bit(A, M)`. -/
def bitOp (m : MemMode) (s : State) (b : Bus := ramBus) : Result :=
  let f := bitTest s.a ((Source.mem m).value s b)
  .next ({ (Source.mem m).after s b with flagZ := f.z, flagV := f.v, flagN := f.n }.advance (memLength m))

/-- R137: `ORA #$nn`, opcode 0x09. -/
def execOraImm (v : Byte) (s : State) (c : Config := standardConfig) : Result := oraOp (.imm v) s c.bus

/-- R137: `ORA $nn`, opcode 0x05. -/
def execOraZp (a1 : Byte) (s : State) (c : Config := standardConfig) : Result := oraOp (.mem (.zp a1)) s c.bus

/-- R137: `ORA $nn,X`, opcode 0x15. -/
def execOraZpx (a1 : Byte) (s : State) (c : Config := standardConfig) : Result := oraOp (.mem (.zpx a1)) s c.bus

/-- R137: `ORA $nnnn`, opcode 0x0D. -/
def execOraAbs (w : Addr) (s : State) (c : Config := standardConfig) : Result := oraOp (.mem (.abs w)) s c.bus

/-- R137: `ORA $nnnn,X`, opcode 0x1D. -/
def execOraAbx (w : Addr) (s : State) (c : Config := standardConfig) : Result := oraOp (.mem (.abx w)) s c.bus

/-- R137: `ORA $nnnn,Y`, opcode 0x19. -/
def execOraAby (w : Addr) (s : State) (c : Config := standardConfig) : Result := oraOp (.mem (.aby w)) s c.bus

/-- R137: `ORA ($nn,X)`, opcode 0x01. -/
def execOraIzx (a1 : Byte) (s : State) (c : Config := standardConfig) : Result := oraOp (.mem (.izx a1)) s c.bus

/-- R137: `ORA ($nn),Y`, opcode 0x11. -/
def execOraIzy (a1 : Byte) (s : State) (c : Config := standardConfig) : Result := oraOp (.mem (.izy a1)) s c.bus

/-- R136: `AND #$nn`, opcode 0x29. -/
def execAndImm (v : Byte) (s : State) (c : Config := standardConfig) : Result := andOp (.imm v) s c.bus

/-- R136: `AND $nn`, opcode 0x25. -/
def execAndZp (a1 : Byte) (s : State) (c : Config := standardConfig) : Result := andOp (.mem (.zp a1)) s c.bus

/-- R136: `AND $nn,X`, opcode 0x35. -/
def execAndZpx (a1 : Byte) (s : State) (c : Config := standardConfig) : Result := andOp (.mem (.zpx a1)) s c.bus

/-- R136: `AND $nnnn`, opcode 0x2D. -/
def execAndAbs (w : Addr) (s : State) (c : Config := standardConfig) : Result := andOp (.mem (.abs w)) s c.bus

/-- R136: `AND $nnnn,X`, opcode 0x3D. -/
def execAndAbx (w : Addr) (s : State) (c : Config := standardConfig) : Result := andOp (.mem (.abx w)) s c.bus

/-- R136: `AND $nnnn,Y`, opcode 0x39. -/
def execAndAby (w : Addr) (s : State) (c : Config := standardConfig) : Result := andOp (.mem (.aby w)) s c.bus

/-- R136: `AND ($nn,X)`, opcode 0x21. -/
def execAndIzx (a1 : Byte) (s : State) (c : Config := standardConfig) : Result := andOp (.mem (.izx a1)) s c.bus

/-- R136: `AND ($nn),Y`, opcode 0x31. -/
def execAndIzy (a1 : Byte) (s : State) (c : Config := standardConfig) : Result := andOp (.mem (.izy a1)) s c.bus

/-- R138: `EOR #$nn`, opcode 0x49. -/
def execEorImm (v : Byte) (s : State) (c : Config := standardConfig) : Result := eorOp (.imm v) s c.bus

/-- R138: `EOR $nn`, opcode 0x45. -/
def execEorZp (a1 : Byte) (s : State) (c : Config := standardConfig) : Result := eorOp (.mem (.zp a1)) s c.bus

/-- R138: `EOR $nn,X`, opcode 0x55. -/
def execEorZpx (a1 : Byte) (s : State) (c : Config := standardConfig) : Result := eorOp (.mem (.zpx a1)) s c.bus

/-- R138: `EOR $nnnn`, opcode 0x4D. -/
def execEorAbs (w : Addr) (s : State) (c : Config := standardConfig) : Result := eorOp (.mem (.abs w)) s c.bus

/-- R138: `EOR $nnnn,X`, opcode 0x5D. -/
def execEorAbx (w : Addr) (s : State) (c : Config := standardConfig) : Result := eorOp (.mem (.abx w)) s c.bus

/-- R138: `EOR $nnnn,Y`, opcode 0x59. -/
def execEorAby (w : Addr) (s : State) (c : Config := standardConfig) : Result := eorOp (.mem (.aby w)) s c.bus

/-- R138: `EOR ($nn,X)`, opcode 0x41. -/
def execEorIzx (a1 : Byte) (s : State) (c : Config := standardConfig) : Result := eorOp (.mem (.izx a1)) s c.bus

/-- R138: `EOR ($nn),Y`, opcode 0x51. -/
def execEorIzy (a1 : Byte) (s : State) (c : Config := standardConfig) : Result := eorOp (.mem (.izy a1)) s c.bus

/-- R134: `ADC #$nn`, opcode 0x69. -/
def execAdcImm (v : Byte) (s : State) (c : Config := standardConfig) : Result := adcOp (.imm v) s c.bus

/-- R134: `ADC $nn`, opcode 0x65. -/
def execAdcZp (a1 : Byte) (s : State) (c : Config := standardConfig) : Result := adcOp (.mem (.zp a1)) s c.bus

/-- R134: `ADC $nn,X`, opcode 0x75. -/
def execAdcZpx (a1 : Byte) (s : State) (c : Config := standardConfig) : Result := adcOp (.mem (.zpx a1)) s c.bus

/-- R134: `ADC $nnnn`, opcode 0x6D. -/
def execAdcAbs (w : Addr) (s : State) (c : Config := standardConfig) : Result := adcOp (.mem (.abs w)) s c.bus

/-- R134: `ADC $nnnn,X`, opcode 0x7D. -/
def execAdcAbx (w : Addr) (s : State) (c : Config := standardConfig) : Result := adcOp (.mem (.abx w)) s c.bus

/-- R134: `ADC $nnnn,Y`, opcode 0x79. -/
def execAdcAby (w : Addr) (s : State) (c : Config := standardConfig) : Result := adcOp (.mem (.aby w)) s c.bus

/-- R134: `ADC ($nn,X)`, opcode 0x61. -/
def execAdcIzx (a1 : Byte) (s : State) (c : Config := standardConfig) : Result := adcOp (.mem (.izx a1)) s c.bus

/-- R134: `ADC ($nn),Y`, opcode 0x71. -/
def execAdcIzy (a1 : Byte) (s : State) (c : Config := standardConfig) : Result := adcOp (.mem (.izy a1)) s c.bus

/-- R135: `SBC #$nn`, opcode 0xE9. -/
def execSbcImm (v : Byte) (s : State) (c : Config := standardConfig) : Result := sbcOp (.imm v) s c.bus

/-- R135: `SBC $nn`, opcode 0xE5. -/
def execSbcZp (a1 : Byte) (s : State) (c : Config := standardConfig) : Result := sbcOp (.mem (.zp a1)) s c.bus

/-- R135: `SBC $nn,X`, opcode 0xF5. -/
def execSbcZpx (a1 : Byte) (s : State) (c : Config := standardConfig) : Result := sbcOp (.mem (.zpx a1)) s c.bus

/-- R135: `SBC $nnnn`, opcode 0xED. -/
def execSbcAbs (w : Addr) (s : State) (c : Config := standardConfig) : Result := sbcOp (.mem (.abs w)) s c.bus

/-- R135: `SBC $nnnn,X`, opcode 0xFD. -/
def execSbcAbx (w : Addr) (s : State) (c : Config := standardConfig) : Result := sbcOp (.mem (.abx w)) s c.bus

/-- R135: `SBC $nnnn,Y`, opcode 0xF9. -/
def execSbcAby (w : Addr) (s : State) (c : Config := standardConfig) : Result := sbcOp (.mem (.aby w)) s c.bus

/-- R135: `SBC ($nn,X)`, opcode 0xE1. -/
def execSbcIzx (a1 : Byte) (s : State) (c : Config := standardConfig) : Result := sbcOp (.mem (.izx a1)) s c.bus

/-- R135: `SBC ($nn),Y`, opcode 0xF1. -/
def execSbcIzy (a1 : Byte) (s : State) (c : Config := standardConfig) : Result := sbcOp (.mem (.izy a1)) s c.bus

/-- R141: `CPY #$nn`, opcode 0xC0. -/
def execCpyImm (v : Byte) (s : State) (c : Config := standardConfig) : Result := compareOp s.y (.imm v) s c.bus

/-- R141: `CPY $nn`, opcode 0xC4. -/
def execCpyZp (a1 : Byte) (s : State) (c : Config := standardConfig) : Result := compareOp s.y (.mem (.zp a1)) s c.bus

/-- R141: `CPY $nnnn`, opcode 0xCC. -/
def execCpyAbs (w : Addr) (s : State) (c : Config := standardConfig) : Result := compareOp s.y (.mem (.abs w)) s c.bus

/-- R139: `CMP #$nn`, opcode 0xC9. -/
def execCmpImm (v : Byte) (s : State) (c : Config := standardConfig) : Result := compareOp s.a (.imm v) s c.bus

/-- R139: `CMP $nn`, opcode 0xC5. -/
def execCmpZp (a1 : Byte) (s : State) (c : Config := standardConfig) : Result := compareOp s.a (.mem (.zp a1)) s c.bus

/-- R139: `CMP $nn,X`, opcode 0xD5. -/
def execCmpZpx (a1 : Byte) (s : State) (c : Config := standardConfig) : Result := compareOp s.a (.mem (.zpx a1)) s c.bus

/-- R139: `CMP $nnnn`, opcode 0xCD. -/
def execCmpAbs (w : Addr) (s : State) (c : Config := standardConfig) : Result := compareOp s.a (.mem (.abs w)) s c.bus

/-- R139: `CMP $nnnn,X`, opcode 0xDD. -/
def execCmpAbx (w : Addr) (s : State) (c : Config := standardConfig) : Result := compareOp s.a (.mem (.abx w)) s c.bus

/-- R139: `CMP $nnnn,Y`, opcode 0xD9. -/
def execCmpAby (w : Addr) (s : State) (c : Config := standardConfig) : Result := compareOp s.a (.mem (.aby w)) s c.bus

/-- R139: `CMP ($nn,X)`, opcode 0xC1. -/
def execCmpIzx (a1 : Byte) (s : State) (c : Config := standardConfig) : Result := compareOp s.a (.mem (.izx a1)) s c.bus

/-- R139: `CMP ($nn),Y`, opcode 0xD1. -/
def execCmpIzy (a1 : Byte) (s : State) (c : Config := standardConfig) : Result := compareOp s.a (.mem (.izy a1)) s c.bus

/-- R140: `CPX #$nn`, opcode 0xE0. -/
def execCpxImm (v : Byte) (s : State) (c : Config := standardConfig) : Result := compareOp s.x (.imm v) s c.bus

/-- R140: `CPX $nn`, opcode 0xE4. -/
def execCpxZp (a1 : Byte) (s : State) (c : Config := standardConfig) : Result := compareOp s.x (.mem (.zp a1)) s c.bus

/-- R140: `CPX $nnnn`, opcode 0xEC. -/
def execCpxAbs (w : Addr) (s : State) (c : Config := standardConfig) : Result := compareOp s.x (.mem (.abs w)) s c.bus

/-- R142: `BIT $nn`, opcode 0x24. -/
def execBitZp (a1 : Byte) (s : State) (c : Config := standardConfig) : Result := bitOp (.zp a1) s c.bus

/-- R142: `BIT $nnnn`, opcode 0x2C. -/
def execBitAbs (w : Addr) (s : State) (c : Config := standardConfig) : Result := bitOp (.abs w) s c.bus

end Sys2Proof.Machine
end

