-- ==== Sys2Proof/Machine/Control.lean ====
section
/-! DEFINITION. Control transfer: the eight branches, JMP, JSR, RTS, BRK, RTI (45_control.md). These write `PC` by their
own rules; no length is added to it (10_state.md R25). -/

namespace Sys2Proof.Machine

/-- R191: `branch(cond, d)`: `PC + 2 + sext_16(d)` when taken, `PC + 2` when not. -/
def branchOp (cond : Bool) (d : Byte) (s : State) : Result :=
  .next (s.setPc (if cond then s.pc + 2 + sext16 d else s.pc + 2))

/-- R192: `BPL $nnnn (target)`, opcode 0x10. -/
def execBpl (d : Byte) (s : State) : Result := branchOp (!s.flagN) d s

/-- R193: `BMI $nnnn (target)`, opcode 0x30. -/
def execBmi (d : Byte) (s : State) : Result := branchOp s.flagN d s

/-- R194: `BVC $nnnn (target)`, opcode 0x50. -/
def execBvc (d : Byte) (s : State) : Result := branchOp (!s.flagV) d s

/-- R195: `BVS $nnnn (target)`, opcode 0x70. -/
def execBvs (d : Byte) (s : State) : Result := branchOp s.flagV d s

/-- R196: `BCC $nnnn (target)`, opcode 0x90. -/
def execBcc (d : Byte) (s : State) : Result := branchOp (!s.flagC) d s

/-- R197: `BCS $nnnn (target)`, opcode 0xB0. -/
def execBcs (d : Byte) (s : State) : Result := branchOp s.flagC d s

/-- R198: `BNE $nnnn (target)`, opcode 0xD0. -/
def execBne (d : Byte) (s : State) : Result := branchOp (!s.flagZ) d s

/-- R199: `BEQ $nnnn (target)`, opcode 0xF0. -/
def execBeq (d : Byte) (s : State) : Result := branchOp s.flagZ d s

/-- R203: `BRK`, opcode 0x00. -/
def execBrk (s : State) (c : Config := standardConfig) : Result := .next (enterBreak c.brkVector s c.bus)

/-- R201: `JSR $nnnn`, opcode 0x20. -/
def execJsr (w : Addr) (s : State) (c : Config := standardConfig) : Result :=
  .next ((s.push16 (s.pc + 2) c.bus).setPc w)

/-- R204: `RTI`, opcode 0x40. -/
def execRti (s : State) (c : Config := standardConfig) : Result := .next (returnFromBreak s c.bus)

/-- R200: `JMP $nnnn`, opcode 0x4C. -/
def execJmpAbs (w : Addr) (s : State) : Result := .next (s.setPc (effectiveAddress (.abs w) s))

/-- R200: `JMP ($nnnn)`, opcode 0x6C. -/
def execJmpInd (w : Addr) (s : State) (c : Config := standardConfig) : Result :=
  .next ((afterIndirect w s c.bus).setPc (indirectTarget w s c.bus))

/-- R202: `RTS`, opcode 0x60. -/
def execRts (s : State) (c : Config := standardConfig) : Result :=
  .next ((s.pop16 c.bus).setPc (s.pop16Value c.bus + 1))

end Sys2Proof.Machine
end

