-- ==== Sys2Proof/Machine/FlagsMisc.lean ====
section
/-! DEFINITION. Flag instructions and NOP: CLC, SEC, CLI, SEI, CLV, CLD, SED, NOP (46_flags_misc.md, decisions D14 and
D15). -/

namespace Sys2Proof.Machine

/-- R210: `CLC`, opcode 0x18. -/
def execClc (s : State) : Result := .next ((s.setC false).advance 1)

/-- R211: `SEC`, opcode 0x38. -/
def execSec (s : State) : Result := .next ((s.setC true).advance 1)

/-- R212: `CLI`, opcode 0x58. -/
def execCli (s : State) : Result := .next ((s.setI false).advance 1)

/-- R213: `SEI`, opcode 0x78. -/
def execSei (s : State) : Result := .next ((s.setI true).advance 1)

/-- R214: `CLV`, opcode 0xB8. -/
def execClv (s : State) : Result := .next ((s.setV false).advance 1)

/-- R215: `CLD`, opcode 0xD8. -/
def execCld (s : State) : Result := .next ((s.setD false).advance 1)

/-- R216: `SED`, opcode 0xF8. -/
def execSed (s : State) : Result := .next ((s.setD true).advance 1)

/-- R217: `NOP`, opcode 0xEA. -/
def execNop (s : State) : Result := .next (s.advance 1)

end Sys2Proof.Machine
end

