-- ==== Sys2Proof/Machine/LoadStore.lean ====
section
/-! DEFINITION. Loads and stores: LDA, LDX, LDY, STA, STX, STY (41_load_store.md). -/

namespace Sys2Proof.Machine

/-- R110: `A <- M; (N, Z) <- nz(A)`. -/
def ldaOp (src : Source) (s : State) (b : Bus := ramBus) : Result :=
  let v := src.value s b
  .next ((((src.after s b).setA v).setNZ v).advance src.length)

/-- R111: `X <- M; (N, Z) <- nz(X)`. The operand address is resolved with the old registers. -/
def ldxOp (src : Source) (s : State) (b : Bus := ramBus) : Result :=
  let v := src.value s b
  .next ((((src.after s b).setX v).setNZ v).advance src.length)

/-- R112: `Y <- M; (N, Z) <- nz(Y)`. -/
def ldyOp (src : Source) (s : State) (b : Bus := ramBus) : Result :=
  let v := src.value s b
  .next ((((src.after s b).setY v).setNZ v).advance src.length)

/-- R113 to R115: `MemWrite(ea, 1, v)`, with no read of `ea` and no flag written (R105). -/
def storeOp (v : Byte) (m : MemMode) (s : State) (b : Bus := ramBus) : Result :=
  .next (((afterAddress m s b).writeByte (effectiveAddress m s b) v b).advance (memLength m))

/-- R112: `LDY #$nn`, opcode 0xA0. -/
def execLdyImm (v : Byte) (s : State) (c : Config := standardConfig) : Result := ldyOp (.imm v) s c.bus

/-- R112: `LDY $nn`, opcode 0xA4. -/
def execLdyZp (a1 : Byte) (s : State) (c : Config := standardConfig) : Result := ldyOp (.mem (.zp a1)) s c.bus

/-- R112: `LDY $nn,X`, opcode 0xB4. -/
def execLdyZpx (a1 : Byte) (s : State) (c : Config := standardConfig) : Result := ldyOp (.mem (.zpx a1)) s c.bus

/-- R112: `LDY $nnnn`, opcode 0xAC. -/
def execLdyAbs (w : Addr) (s : State) (c : Config := standardConfig) : Result := ldyOp (.mem (.abs w)) s c.bus

/-- R112: `LDY $nnnn,X`, opcode 0xBC. -/
def execLdyAbx (w : Addr) (s : State) (c : Config := standardConfig) : Result := ldyOp (.mem (.abx w)) s c.bus

/-- R110: `LDA #$nn`, opcode 0xA9. -/
def execLdaImm (v : Byte) (s : State) (c : Config := standardConfig) : Result := ldaOp (.imm v) s c.bus

/-- R110: `LDA $nn`, opcode 0xA5. -/
def execLdaZp (a1 : Byte) (s : State) (c : Config := standardConfig) : Result := ldaOp (.mem (.zp a1)) s c.bus

/-- R110: `LDA $nn,X`, opcode 0xB5. -/
def execLdaZpx (a1 : Byte) (s : State) (c : Config := standardConfig) : Result := ldaOp (.mem (.zpx a1)) s c.bus

/-- R110: `LDA $nnnn`, opcode 0xAD. -/
def execLdaAbs (w : Addr) (s : State) (c : Config := standardConfig) : Result := ldaOp (.mem (.abs w)) s c.bus

/-- R110: `LDA $nnnn,X`, opcode 0xBD. -/
def execLdaAbx (w : Addr) (s : State) (c : Config := standardConfig) : Result := ldaOp (.mem (.abx w)) s c.bus

/-- R110: `LDA $nnnn,Y`, opcode 0xB9. -/
def execLdaAby (w : Addr) (s : State) (c : Config := standardConfig) : Result := ldaOp (.mem (.aby w)) s c.bus

/-- R110: `LDA ($nn,X)`, opcode 0xA1. -/
def execLdaIzx (a1 : Byte) (s : State) (c : Config := standardConfig) : Result := ldaOp (.mem (.izx a1)) s c.bus

/-- R110: `LDA ($nn),Y`, opcode 0xB1. -/
def execLdaIzy (a1 : Byte) (s : State) (c : Config := standardConfig) : Result := ldaOp (.mem (.izy a1)) s c.bus

/-- R111: `LDX #$nn`, opcode 0xA2. -/
def execLdxImm (v : Byte) (s : State) (c : Config := standardConfig) : Result := ldxOp (.imm v) s c.bus

/-- R111: `LDX $nn`, opcode 0xA6. -/
def execLdxZp (a1 : Byte) (s : State) (c : Config := standardConfig) : Result := ldxOp (.mem (.zp a1)) s c.bus

/-- R111: `LDX $nn,Y`, opcode 0xB6. -/
def execLdxZpy (a1 : Byte) (s : State) (c : Config := standardConfig) : Result := ldxOp (.mem (.zpy a1)) s c.bus

/-- R111: `LDX $nnnn`, opcode 0xAE. -/
def execLdxAbs (w : Addr) (s : State) (c : Config := standardConfig) : Result := ldxOp (.mem (.abs w)) s c.bus

/-- R111: `LDX $nnnn,Y`, opcode 0xBE. -/
def execLdxAby (w : Addr) (s : State) (c : Config := standardConfig) : Result := ldxOp (.mem (.aby w)) s c.bus

/-- R113: `STA $nn`, opcode 0x85. -/
def execStaZp (a1 : Byte) (s : State) (c : Config := standardConfig) : Result := storeOp s.a (.zp a1) s c.bus

/-- R113: `STA $nn,X`, opcode 0x95. -/
def execStaZpx (a1 : Byte) (s : State) (c : Config := standardConfig) : Result := storeOp s.a (.zpx a1) s c.bus

/-- R113: `STA $nnnn`, opcode 0x8D. -/
def execStaAbs (w : Addr) (s : State) (c : Config := standardConfig) : Result := storeOp s.a (.abs w) s c.bus

/-- R113: `STA $nnnn,X`, opcode 0x9D. -/
def execStaAbx (w : Addr) (s : State) (c : Config := standardConfig) : Result := storeOp s.a (.abx w) s c.bus

/-- R113: `STA $nnnn,Y`, opcode 0x99. -/
def execStaAby (w : Addr) (s : State) (c : Config := standardConfig) : Result := storeOp s.a (.aby w) s c.bus

/-- R113: `STA ($nn,X)`, opcode 0x81. -/
def execStaIzx (a1 : Byte) (s : State) (c : Config := standardConfig) : Result := storeOp s.a (.izx a1) s c.bus

/-- R113: `STA ($nn),Y`, opcode 0x91. -/
def execStaIzy (a1 : Byte) (s : State) (c : Config := standardConfig) : Result := storeOp s.a (.izy a1) s c.bus

/-- R115: `STY $nn`, opcode 0x84. -/
def execStyZp (a1 : Byte) (s : State) (c : Config := standardConfig) : Result := storeOp s.y (.zp a1) s c.bus

/-- R115: `STY $nn,X`, opcode 0x94. -/
def execStyZpx (a1 : Byte) (s : State) (c : Config := standardConfig) : Result := storeOp s.y (.zpx a1) s c.bus

/-- R115: `STY $nnnn`, opcode 0x8C. -/
def execStyAbs (w : Addr) (s : State) (c : Config := standardConfig) : Result := storeOp s.y (.abs w) s c.bus

/-- R114: `STX $nn`, opcode 0x86. -/
def execStxZp (a1 : Byte) (s : State) (c : Config := standardConfig) : Result := storeOp s.x (.zp a1) s c.bus

/-- R114: `STX $nn,Y`, opcode 0x96. -/
def execStxZpy (a1 : Byte) (s : State) (c : Config := standardConfig) : Result := storeOp s.x (.zpy a1) s c.bus

/-- R114: `STX $nnnn`, opcode 0x8E. -/
def execStxAbs (w : Addr) (s : State) (c : Config := standardConfig) : Result := storeOp s.x (.abs w) s c.bus

end Sys2Proof.Machine
end

