-- ==== Sys2Proof/Machine/ShiftIncDec.lean ====
section
/-! DEFINITION. Shifts, rotates, increments and decrements: ASL, LSR, ROL, ROR, INC, DEC, INX, INY, DEX, DEY
(43_shift_incdec.md). -/

namespace Sys2Proof.Machine

/-- R154 to R157: read the handle, compute the new byte and the carry, set C, N and Z, write the new byte back through
the handle: one read and one write (R105). -/
def shiftOp (f : Byte → ShiftResult) (t : Target) (s : State) (b : Bus := ramBus) : Result :=
  let h := t.handle s b
  let s' := t.afterResolve s b
  let r := f (h.read s' b)
  .next ((h.write r.value (((h.afterRead s' b).setC r.c).setNZ r.value) b).advance t.length)

/-- R158, R159: read the cell, compute the new byte, set N and Z, write the cell. -/
def modifyOp (f : Byte → Byte) (m : MemMode) (s : State) (b : Bus := ramBus) : Result :=
  let v := f ((Source.mem m).value s b)
  .next (((((Source.mem m).after s b).setNZ v).writeByte (effectiveAddress m s b) v b).advance (memLength m))

/-- R154: `ASL A`, opcode 0x0A. -/
def execAslAcc (s : State) (c : Config := standardConfig) : Result := shiftOp asl .acc s c.bus

/-- R154: `ASL $nn`, opcode 0x06. -/
def execAslZp (a1 : Byte) (s : State) (c : Config := standardConfig) : Result := shiftOp asl (.mem (.zp a1)) s c.bus

/-- R154: `ASL $nn,X`, opcode 0x16. -/
def execAslZpx (a1 : Byte) (s : State) (c : Config := standardConfig) : Result := shiftOp asl (.mem (.zpx a1)) s c.bus

/-- R154: `ASL $nnnn`, opcode 0x0E. -/
def execAslAbs (w : Addr) (s : State) (c : Config := standardConfig) : Result := shiftOp asl (.mem (.abs w)) s c.bus

/-- R154: `ASL $nnnn,X`, opcode 0x1E. -/
def execAslAbx (w : Addr) (s : State) (c : Config := standardConfig) : Result := shiftOp asl (.mem (.abx w)) s c.bus

/-- R155: `LSR A`, opcode 0x4A. -/
def execLsrAcc (s : State) (c : Config := standardConfig) : Result := shiftOp lsr .acc s c.bus

/-- R155: `LSR $nn`, opcode 0x46. -/
def execLsrZp (a1 : Byte) (s : State) (c : Config := standardConfig) : Result := shiftOp lsr (.mem (.zp a1)) s c.bus

/-- R155: `LSR $nn,X`, opcode 0x56. -/
def execLsrZpx (a1 : Byte) (s : State) (c : Config := standardConfig) : Result := shiftOp lsr (.mem (.zpx a1)) s c.bus

/-- R155: `LSR $nnnn`, opcode 0x4E. -/
def execLsrAbs (w : Addr) (s : State) (c : Config := standardConfig) : Result := shiftOp lsr (.mem (.abs w)) s c.bus

/-- R155: `LSR $nnnn,X`, opcode 0x5E. -/
def execLsrAbx (w : Addr) (s : State) (c : Config := standardConfig) : Result := shiftOp lsr (.mem (.abx w)) s c.bus

/-- R156: `ROL A`, opcode 0x2A. -/
def execRolAcc (s : State) (c : Config := standardConfig) : Result := shiftOp (fun old => rol old s.flagC) .acc s c.bus

/-- R156: `ROL $nn`, opcode 0x26. -/
def execRolZp (a1 : Byte) (s : State) (c : Config := standardConfig) : Result :=
  shiftOp (fun old => rol old s.flagC) (.mem (.zp a1)) s c.bus

/-- R156: `ROL $nn,X`, opcode 0x36. -/
def execRolZpx (a1 : Byte) (s : State) (c : Config := standardConfig) : Result :=
  shiftOp (fun old => rol old s.flagC) (.mem (.zpx a1)) s c.bus

/-- R156: `ROL $nnnn`, opcode 0x2E. -/
def execRolAbs (w : Addr) (s : State) (c : Config := standardConfig) : Result :=
  shiftOp (fun old => rol old s.flagC) (.mem (.abs w)) s c.bus

/-- R156: `ROL $nnnn,X`, opcode 0x3E. -/
def execRolAbx (w : Addr) (s : State) (c : Config := standardConfig) : Result :=
  shiftOp (fun old => rol old s.flagC) (.mem (.abx w)) s c.bus

/-- R157: `ROR A`, opcode 0x6A. -/
def execRorAcc (s : State) (c : Config := standardConfig) : Result := shiftOp (fun old => ror old s.flagC) .acc s c.bus

/-- R157: `ROR $nn`, opcode 0x66. -/
def execRorZp (a1 : Byte) (s : State) (c : Config := standardConfig) : Result :=
  shiftOp (fun old => ror old s.flagC) (.mem (.zp a1)) s c.bus

/-- R157: `ROR $nn,X`, opcode 0x76. -/
def execRorZpx (a1 : Byte) (s : State) (c : Config := standardConfig) : Result :=
  shiftOp (fun old => ror old s.flagC) (.mem (.zpx a1)) s c.bus

/-- R157: `ROR $nnnn`, opcode 0x6E. -/
def execRorAbs (w : Addr) (s : State) (c : Config := standardConfig) : Result :=
  shiftOp (fun old => ror old s.flagC) (.mem (.abs w)) s c.bus

/-- R157: `ROR $nnnn,X`, opcode 0x7E. -/
def execRorAbx (w : Addr) (s : State) (c : Config := standardConfig) : Result :=
  shiftOp (fun old => ror old s.flagC) (.mem (.abx w)) s c.bus

/-- R159: `DEC $nn`, opcode 0xC6. -/
def execDecZp (a1 : Byte) (s : State) (c : Config := standardConfig) : Result :=
  modifyOp (fun old => old - 1) (.zp a1) s c.bus

/-- R159: `DEC $nn,X`, opcode 0xD6. -/
def execDecZpx (a1 : Byte) (s : State) (c : Config := standardConfig) : Result :=
  modifyOp (fun old => old - 1) (.zpx a1) s c.bus

/-- R159: `DEC $nnnn`, opcode 0xCE. -/
def execDecAbs (w : Addr) (s : State) (c : Config := standardConfig) : Result :=
  modifyOp (fun old => old - 1) (.abs w) s c.bus

/-- R159: `DEC $nnnn,X`, opcode 0xDE. -/
def execDecAbx (w : Addr) (s : State) (c : Config := standardConfig) : Result :=
  modifyOp (fun old => old - 1) (.abx w) s c.bus

/-- R158: `INC $nn`, opcode 0xE6. -/
def execIncZp (a1 : Byte) (s : State) (c : Config := standardConfig) : Result :=
  modifyOp (fun old => old + 1) (.zp a1) s c.bus

/-- R158: `INC $nn,X`, opcode 0xF6. -/
def execIncZpx (a1 : Byte) (s : State) (c : Config := standardConfig) : Result :=
  modifyOp (fun old => old + 1) (.zpx a1) s c.bus

/-- R158: `INC $nnnn`, opcode 0xEE. -/
def execIncAbs (w : Addr) (s : State) (c : Config := standardConfig) : Result :=
  modifyOp (fun old => old + 1) (.abs w) s c.bus

/-- R158: `INC $nnnn,X`, opcode 0xFE. -/
def execIncAbx (w : Addr) (s : State) (c : Config := standardConfig) : Result :=
  modifyOp (fun old => old + 1) (.abx w) s c.bus

/-- R163: `DEY`, opcode 0x88. -/
def execDey (s : State) : Result :=
  let v := s.y - 1
  .next (((s.setY v).setNZ v).advance 1)

/-- R161: `INY`, opcode 0xC8. -/
def execIny (s : State) : Result :=
  let v := s.y + 1
  .next (((s.setY v).setNZ v).advance 1)

/-- R162: `DEX`, opcode 0xCA. -/
def execDex (s : State) : Result :=
  let v := s.x - 1
  .next (((s.setX v).setNZ v).advance 1)

/-- R160: `INX`, opcode 0xE8. -/
def execInx (s : State) : Result :=
  let v := s.x + 1
  .next (((s.setX v).setNZ v).advance 1)

end Sys2Proof.Machine
end

