-- ==== Sys2Proof/Machine/TransferStack.lean ====
section
/-! DEFINITION. Register transfers, push and pull: TAX, TAY, TXA, TYA, TSX, TXS, PHA, PLA, PHP, PLP
(44_transfer_stack.md). -/

namespace Sys2Proof.Machine

/-- R180: `SP <- X; if TXS_SETS_NZ then (N, Z) <- nz(SP)`, for either value of the parameter (decision D16). -/
def txsWith (setsNz : Bool) (s : State) : State :=
  let moved := s.setSp s.x
  (if setsNz then moved.setNZ s.x else moved).advance 1

/-- R177: `TXA`, opcode 0x8A. -/
def execTxa (s : State) : Result := .next (((s.setA s.x).setNZ s.x).advance 1)

/-- R178: `TYA`, opcode 0x98. -/
def execTya (s : State) : Result := .next (((s.setA s.y).setNZ s.y).advance 1)

/-- R176: `TAY`, opcode 0xA8. -/
def execTay (s : State) : Result := .next (((s.setY s.a).setNZ s.a).advance 1)

/-- R175: `TAX`, opcode 0xAA. -/
def execTax (s : State) : Result := .next (((s.setX s.a).setNZ s.a).advance 1)

/-- R179: `TSX`, opcode 0xBA. -/
def execTsx (s : State) : Result := .next (((s.setX s.sp).setNZ s.sp).advance 1)

/-- R183: `PHP`, opcode 0x08. -/
def execPhp (s : State) (c : Config := standardConfig) : Result := .next ((s.push8 (packStatus s) c.bus).advance 1)

/-- R184: `PLP`, opcode 0x28. -/
def execPlp (s : State) (c : Config := standardConfig) : Result :=
  .next ((unpackStatus (s.pop8Value c.bus) (s.pop8 c.bus)).advance 1)

/-- R181: `PHA`, opcode 0x48. -/
def execPha (s : State) (c : Config := standardConfig) : Result := .next ((s.push8 s.a c.bus).advance 1)

/-- R182: `PLA`, opcode 0x68. -/
def execPla (s : State) (c : Config := standardConfig) : Result :=
  let v := s.pop8Value c.bus
  .next ((((s.pop8 c.bus).setA v).setNZ v).advance 1)

/-- R180: `TXS`, opcode 0x9A. -/
def execTxs (s : State) (c : Config := standardConfig) : Result := .next (txsWith c.txsSetsNz s)

end Sys2Proof.Machine
end

