-- ==== Sys2Proof/Machine/Dispatch.lean ====
section
/-! DEFINITION. The meaning of every instruction: one arm per constructor of `Instr`, one call each. -/

namespace Sys2Proof.Machine

/-- The effect of a recognized instruction, its own `PC` write included (10_state.md R25, R34). -/
def exec (i : Instr) (s : State) : Host.Outcome State Fault Refusal :=
  match i with
  | .brk => Sys2Proof.Machine.execBrk s
  | .oraImm v => Sys2Proof.Machine.execOraImm v s
  | .oraZp a1 => Sys2Proof.Machine.execOraZp a1 s
  | .oraZpx a1 => Sys2Proof.Machine.execOraZpx a1 s
  | .oraAbs w => Sys2Proof.Machine.execOraAbs w s
  | .oraAbx w => Sys2Proof.Machine.execOraAbx w s
  | .oraAby w => Sys2Proof.Machine.execOraAby w s
  | .oraIzx a1 => Sys2Proof.Machine.execOraIzx a1 s
  | .oraIzy a1 => Sys2Proof.Machine.execOraIzy a1 s
  | .aslAcc => Sys2Proof.Machine.execAslAcc s
  | .aslZp a1 => Sys2Proof.Machine.execAslZp a1 s
  | .aslZpx a1 => Sys2Proof.Machine.execAslZpx a1 s
  | .aslAbs w => Sys2Proof.Machine.execAslAbs w s
  | .aslAbx w => Sys2Proof.Machine.execAslAbx w s
  | .php => Sys2Proof.Machine.execPhp s
  | .bpl d => Sys2Proof.Machine.execBpl d s
  | .clc => Sys2Proof.Machine.execClc s
  | .jsr w => Sys2Proof.Machine.execJsr w s
  | .andImm v => Sys2Proof.Machine.execAndImm v s
  | .andZp a1 => Sys2Proof.Machine.execAndZp a1 s
  | .andZpx a1 => Sys2Proof.Machine.execAndZpx a1 s
  | .andAbs w => Sys2Proof.Machine.execAndAbs w s
  | .andAbx w => Sys2Proof.Machine.execAndAbx w s
  | .andAby w => Sys2Proof.Machine.execAndAby w s
  | .andIzx a1 => Sys2Proof.Machine.execAndIzx a1 s
  | .andIzy a1 => Sys2Proof.Machine.execAndIzy a1 s
  | .bitZp a1 => Sys2Proof.Machine.execBitZp a1 s
  | .bitAbs w => Sys2Proof.Machine.execBitAbs w s
  | .rolAcc => Sys2Proof.Machine.execRolAcc s
  | .rolZp a1 => Sys2Proof.Machine.execRolZp a1 s
  | .rolZpx a1 => Sys2Proof.Machine.execRolZpx a1 s
  | .rolAbs w => Sys2Proof.Machine.execRolAbs w s
  | .rolAbx w => Sys2Proof.Machine.execRolAbx w s
  | .plp => Sys2Proof.Machine.execPlp s
  | .bmi d => Sys2Proof.Machine.execBmi d s
  | .sec => Sys2Proof.Machine.execSec s
  | .rti => Sys2Proof.Machine.execRti s
  | .eorImm v => Sys2Proof.Machine.execEorImm v s
  | .eorZp a1 => Sys2Proof.Machine.execEorZp a1 s
  | .eorZpx a1 => Sys2Proof.Machine.execEorZpx a1 s
  | .eorAbs w => Sys2Proof.Machine.execEorAbs w s
  | .eorAbx w => Sys2Proof.Machine.execEorAbx w s
  | .eorAby w => Sys2Proof.Machine.execEorAby w s
  | .eorIzx a1 => Sys2Proof.Machine.execEorIzx a1 s
  | .eorIzy a1 => Sys2Proof.Machine.execEorIzy a1 s
  | .lsrAcc => Sys2Proof.Machine.execLsrAcc s
  | .lsrZp a1 => Sys2Proof.Machine.execLsrZp a1 s
  | .lsrZpx a1 => Sys2Proof.Machine.execLsrZpx a1 s
  | .lsrAbs w => Sys2Proof.Machine.execLsrAbs w s
  | .lsrAbx w => Sys2Proof.Machine.execLsrAbx w s
  | .pha => Sys2Proof.Machine.execPha s
  | .jmpAbs w => Sys2Proof.Machine.execJmpAbs w s
  | .jmpInd w => Sys2Proof.Machine.execJmpInd w s
  | .bvc d => Sys2Proof.Machine.execBvc d s
  | .cli => Sys2Proof.Machine.execCli s
  | .rts => Sys2Proof.Machine.execRts s
  | .adcImm v => Sys2Proof.Machine.execAdcImm v s
  | .adcZp a1 => Sys2Proof.Machine.execAdcZp a1 s
  | .adcZpx a1 => Sys2Proof.Machine.execAdcZpx a1 s
  | .adcAbs w => Sys2Proof.Machine.execAdcAbs w s
  | .adcAbx w => Sys2Proof.Machine.execAdcAbx w s
  | .adcAby w => Sys2Proof.Machine.execAdcAby w s
  | .adcIzx a1 => Sys2Proof.Machine.execAdcIzx a1 s
  | .adcIzy a1 => Sys2Proof.Machine.execAdcIzy a1 s
  | .rorAcc => Sys2Proof.Machine.execRorAcc s
  | .rorZp a1 => Sys2Proof.Machine.execRorZp a1 s
  | .rorZpx a1 => Sys2Proof.Machine.execRorZpx a1 s
  | .rorAbs w => Sys2Proof.Machine.execRorAbs w s
  | .rorAbx w => Sys2Proof.Machine.execRorAbx w s
  | .pla => Sys2Proof.Machine.execPla s
  | .bvs d => Sys2Proof.Machine.execBvs d s
  | .sei => Sys2Proof.Machine.execSei s
  | .staZp a1 => Sys2Proof.Machine.execStaZp a1 s
  | .staZpx a1 => Sys2Proof.Machine.execStaZpx a1 s
  | .staAbs w => Sys2Proof.Machine.execStaAbs w s
  | .staAbx w => Sys2Proof.Machine.execStaAbx w s
  | .staAby w => Sys2Proof.Machine.execStaAby w s
  | .staIzx a1 => Sys2Proof.Machine.execStaIzx a1 s
  | .staIzy a1 => Sys2Proof.Machine.execStaIzy a1 s
  | .styZp a1 => Sys2Proof.Machine.execStyZp a1 s
  | .styZpx a1 => Sys2Proof.Machine.execStyZpx a1 s
  | .styAbs w => Sys2Proof.Machine.execStyAbs w s
  | .stxZp a1 => Sys2Proof.Machine.execStxZp a1 s
  | .stxZpy a1 => Sys2Proof.Machine.execStxZpy a1 s
  | .stxAbs w => Sys2Proof.Machine.execStxAbs w s
  | .dey => Sys2Proof.Machine.execDey s
  | .txa => Sys2Proof.Machine.execTxa s
  | .bcc d => Sys2Proof.Machine.execBcc d s
  | .tya => Sys2Proof.Machine.execTya s
  | .txs => Sys2Proof.Machine.execTxs s
  | .ldyImm v => Sys2Proof.Machine.execLdyImm v s
  | .ldyZp a1 => Sys2Proof.Machine.execLdyZp a1 s
  | .ldyZpx a1 => Sys2Proof.Machine.execLdyZpx a1 s
  | .ldyAbs w => Sys2Proof.Machine.execLdyAbs w s
  | .ldyAbx w => Sys2Proof.Machine.execLdyAbx w s
  | .ldaImm v => Sys2Proof.Machine.execLdaImm v s
  | .ldaZp a1 => Sys2Proof.Machine.execLdaZp a1 s
  | .ldaZpx a1 => Sys2Proof.Machine.execLdaZpx a1 s
  | .ldaAbs w => Sys2Proof.Machine.execLdaAbs w s
  | .ldaAbx w => Sys2Proof.Machine.execLdaAbx w s
  | .ldaAby w => Sys2Proof.Machine.execLdaAby w s
  | .ldaIzx a1 => Sys2Proof.Machine.execLdaIzx a1 s
  | .ldaIzy a1 => Sys2Proof.Machine.execLdaIzy a1 s
  | .ldxImm v => Sys2Proof.Machine.execLdxImm v s
  | .ldxZp a1 => Sys2Proof.Machine.execLdxZp a1 s
  | .ldxZpy a1 => Sys2Proof.Machine.execLdxZpy a1 s
  | .ldxAbs w => Sys2Proof.Machine.execLdxAbs w s
  | .ldxAby w => Sys2Proof.Machine.execLdxAby w s
  | .tay => Sys2Proof.Machine.execTay s
  | .tax => Sys2Proof.Machine.execTax s
  | .bcs d => Sys2Proof.Machine.execBcs d s
  | .clv => Sys2Proof.Machine.execClv s
  | .tsx => Sys2Proof.Machine.execTsx s
  | .cpyImm v => Sys2Proof.Machine.execCpyImm v s
  | .cpyZp a1 => Sys2Proof.Machine.execCpyZp a1 s
  | .cpyAbs w => Sys2Proof.Machine.execCpyAbs w s
  | .cmpImm v => Sys2Proof.Machine.execCmpImm v s
  | .cmpZp a1 => Sys2Proof.Machine.execCmpZp a1 s
  | .cmpZpx a1 => Sys2Proof.Machine.execCmpZpx a1 s
  | .cmpAbs w => Sys2Proof.Machine.execCmpAbs w s
  | .cmpAbx w => Sys2Proof.Machine.execCmpAbx w s
  | .cmpAby w => Sys2Proof.Machine.execCmpAby w s
  | .cmpIzx a1 => Sys2Proof.Machine.execCmpIzx a1 s
  | .cmpIzy a1 => Sys2Proof.Machine.execCmpIzy a1 s
  | .decZp a1 => Sys2Proof.Machine.execDecZp a1 s
  | .decZpx a1 => Sys2Proof.Machine.execDecZpx a1 s
  | .decAbs w => Sys2Proof.Machine.execDecAbs w s
  | .decAbx w => Sys2Proof.Machine.execDecAbx w s
  | .iny => Sys2Proof.Machine.execIny s
  | .dex => Sys2Proof.Machine.execDex s
  | .bne d => Sys2Proof.Machine.execBne d s
  | .cld => Sys2Proof.Machine.execCld s
  | .cpxImm v => Sys2Proof.Machine.execCpxImm v s
  | .cpxZp a1 => Sys2Proof.Machine.execCpxZp a1 s
  | .cpxAbs w => Sys2Proof.Machine.execCpxAbs w s
  | .sbcImm v => Sys2Proof.Machine.execSbcImm v s
  | .sbcZp a1 => Sys2Proof.Machine.execSbcZp a1 s
  | .sbcZpx a1 => Sys2Proof.Machine.execSbcZpx a1 s
  | .sbcAbs w => Sys2Proof.Machine.execSbcAbs w s
  | .sbcAbx w => Sys2Proof.Machine.execSbcAbx w s
  | .sbcAby w => Sys2Proof.Machine.execSbcAby w s
  | .sbcIzx a1 => Sys2Proof.Machine.execSbcIzx a1 s
  | .sbcIzy a1 => Sys2Proof.Machine.execSbcIzy a1 s
  | .incZp a1 => Sys2Proof.Machine.execIncZp a1 s
  | .incZpx a1 => Sys2Proof.Machine.execIncZpx a1 s
  | .incAbs w => Sys2Proof.Machine.execIncAbs w s
  | .incAbx w => Sys2Proof.Machine.execIncAbx w s
  | .inx => Sys2Proof.Machine.execInx s
  | .nop => Sys2Proof.Machine.execNop s
  | .beq d => Sys2Proof.Machine.execBeq d s
  | .sed => Sys2Proof.Machine.execSed s

end Sys2Proof.Machine
end

