-- ==== Sys2Proof/Machine/Fetch.lean ====
section
/-! DEFINITION. The fetch of a step (10_state.md R34) and the placing of an instruction where it is fetched. -/

namespace Sys2Proof.Machine

/-- R33: the bytes a step latches. -/
structure Fetched where
  op : Byte
  arg1 : Byte
  arg2 : Byte
deriving DecidableEq, Repr

/-- R34: the opcode byte at `PC` and the two bytes after it, read in this order for every opcode; the addresses wrap
(R26). -/
def fetch (s : State) (b : Bus := ramBus) : Fetched where
  op := s.readByte s.pc b
  arg1 := (s.afterRead s.pc b).readByte (s.pc + 1) b
  arg2 := ((s.afterRead s.pc b).afterRead (s.pc + 1) b).readByte (s.pc + 2) b

/-- The state the three fetch reads leave; on RAM it is `s`. -/
def afterFetch (s : State) (b : Bus := ramBus) : State :=
  ((s.afterRead s.pc b).afterRead (s.pc + 1) b).afterRead (s.pc + 2) b

/-- R244: the optional trace tuple `(PC, op, arg1, arg2)`; nothing in the state depends on it. -/
def traceLine (s : State) : Addr × Fetched := (s.pc, fetch s)

/-- The three bytes of the bits `u` stored at `PC`, `PC + 1` and `PC + 2`, on a running core. -/
def placeBytes (s : State) (u : Nat) : State :=
  { ((s.writeByte s.pc (BitVec.ofNat 8 u)).writeByte (s.pc + 1) (BitVec.ofNat 8 (u / 256))).writeByte (s.pc + 2)
      (BitVec.ofNat 8 (u / 65536)) with
    halted := false
    faultRecord := none }

end Sys2Proof.Machine
end

