-- ==== Sys2Proof/Machine/Step.lean ====
section
/-! DEFINITION. One step of the core (10_state.md R34). -/

namespace Sys2Proof.Machine

/-- R34: one whole instruction. A Halted core has no step (R234); an unrecognized opcode halts the core, which is a next
state (R231; log entry 2); a recognized one runs. -/
def step (s : State) : Host.Outcome State Fault Refusal :=
  if s.halted then .fault (.halted s.faultRecord)
  else
    match decodeBytes (fetch s).op (fetch s).arg1 (fetch s).arg2 with
    | .unrecognized op => .next (raiseUnrecognized op s)
    | .recognized i => exec i s

/-- The instruction in the `nbits` low bits of `w` (numbered as spec/opcode_table.json numbers them) stored where `step`
fetches, the bits above `nbits` zero. Only a running core fetches, so `halted` and the fault record are cleared
(log entry 4). -/
def State.withFetchWord (s : State) (nbits w : Nat) : State := placeBytes s (w % 2 ^ nbits)

end Sys2Proof.Machine
end

