-- ==== Sys2Proof/Machine/WithParameters.lean ====
section
/-! DEFINITION. The machine for any value of the parameters RECOGNIZED_SET, TXS_SETS_NZ, BRK_VECTOR and BUS (00_scope.md
R15); `exec` and `step` are this machine at `standardConfig`. -/

namespace Sys2Proof.Machine

/-- R15: `exec` under the parameters `c`: the same meanings, given `c` where they read a parameter or the bus. -/
def execWith (c : Config) (i : Instr) (s : State) : Result :=
  match i with
  | .brk => execBrk s c
  | .oraImm v => execOraImm v s c
  | .oraZp a1 => execOraZp a1 s c
  | .oraZpx a1 => execOraZpx a1 s c
  | .oraAbs w => execOraAbs w s c
  | .oraAbx w => execOraAbx w s c
  | .oraAby w => execOraAby w s c
  | .oraIzx a1 => execOraIzx a1 s c
  | .oraIzy a1 => execOraIzy a1 s c
  | .aslAcc => execAslAcc s c
  | .aslZp a1 => execAslZp a1 s c
  | .aslZpx a1 => execAslZpx a1 s c
  | .aslAbs w => execAslAbs w s c
  | .aslAbx w => execAslAbx w s c
  | .php => execPhp s c
  | .bpl d => execBpl d s
  | .clc => execClc s
  | .jsr w => execJsr w s c
  | .andImm v => execAndImm v s c
  | .andZp a1 => execAndZp a1 s c
  | .andZpx a1 => execAndZpx a1 s c
  | .andAbs w => execAndAbs w s c
  | .andAbx w => execAndAbx w s c
  | .andAby w => execAndAby w s c
  | .andIzx a1 => execAndIzx a1 s c
  | .andIzy a1 => execAndIzy a1 s c
  | .bitZp a1 => execBitZp a1 s c
  | .bitAbs w => execBitAbs w s c
  | .rolAcc => execRolAcc s c
  | .rolZp a1 => execRolZp a1 s c
  | .rolZpx a1 => execRolZpx a1 s c
  | .rolAbs w => execRolAbs w s c
  | .rolAbx w => execRolAbx w s c
  | .plp => execPlp s c
  | .bmi d => execBmi d s
  | .sec => execSec s
  | .rti => execRti s c
  | .eorImm v => execEorImm v s c
  | .eorZp a1 => execEorZp a1 s c
  | .eorZpx a1 => execEorZpx a1 s c
  | .eorAbs w => execEorAbs w s c
  | .eorAbx w => execEorAbx w s c
  | .eorAby w => execEorAby w s c
  | .eorIzx a1 => execEorIzx a1 s c
  | .eorIzy a1 => execEorIzy a1 s c
  | .lsrAcc => execLsrAcc s c
  | .lsrZp a1 => execLsrZp a1 s c
  | .lsrZpx a1 => execLsrZpx a1 s c
  | .lsrAbs w => execLsrAbs w s c
  | .lsrAbx w => execLsrAbx w s c
  | .pha => execPha s c
  | .jmpAbs w => execJmpAbs w s
  | .jmpInd w => execJmpInd w s c
  | .bvc d => execBvc d s
  | .cli => execCli s
  | .rts => execRts s c
  | .adcImm v => execAdcImm v s c
  | .adcZp a1 => execAdcZp a1 s c
  | .adcZpx a1 => execAdcZpx a1 s c
  | .adcAbs w => execAdcAbs w s c
  | .adcAbx w => execAdcAbx w s c
  | .adcAby w => execAdcAby w s c
  | .adcIzx a1 => execAdcIzx a1 s c
  | .adcIzy a1 => execAdcIzy a1 s c
  | .rorAcc => execRorAcc s c
  | .rorZp a1 => execRorZp a1 s c
  | .rorZpx a1 => execRorZpx a1 s c
  | .rorAbs w => execRorAbs w s c
  | .rorAbx w => execRorAbx w s c
  | .pla => execPla s c
  | .bvs d => execBvs d s
  | .sei => execSei s
  | .staZp a1 => execStaZp a1 s c
  | .staZpx a1 => execStaZpx a1 s c
  | .staAbs w => execStaAbs w s c
  | .staAbx w => execStaAbx w s c
  | .staAby w => execStaAby w s c
  | .staIzx a1 => execStaIzx a1 s c
  | .staIzy a1 => execStaIzy a1 s c
  | .styZp a1 => execStyZp a1 s c
  | .styZpx a1 => execStyZpx a1 s c
  | .styAbs w => execStyAbs w s c
  | .stxZp a1 => execStxZp a1 s c
  | .stxZpy a1 => execStxZpy a1 s c
  | .stxAbs w => execStxAbs w s c
  | .dey => execDey s
  | .txa => execTxa s
  | .bcc d => execBcc d s
  | .tya => execTya s
  | .txs => execTxs s c
  | .ldyImm v => execLdyImm v s c
  | .ldyZp a1 => execLdyZp a1 s c
  | .ldyZpx a1 => execLdyZpx a1 s c
  | .ldyAbs w => execLdyAbs w s c
  | .ldyAbx w => execLdyAbx w s c
  | .ldaImm v => execLdaImm v s c
  | .ldaZp a1 => execLdaZp a1 s c
  | .ldaZpx a1 => execLdaZpx a1 s c
  | .ldaAbs w => execLdaAbs w s c
  | .ldaAbx w => execLdaAbx w s c
  | .ldaAby w => execLdaAby w s c
  | .ldaIzx a1 => execLdaIzx a1 s c
  | .ldaIzy a1 => execLdaIzy a1 s c
  | .ldxImm v => execLdxImm v s c
  | .ldxZp a1 => execLdxZp a1 s c
  | .ldxZpy a1 => execLdxZpy a1 s c
  | .ldxAbs w => execLdxAbs w s c
  | .ldxAby w => execLdxAby w s c
  | .tay => execTay s
  | .tax => execTax s
  | .bcs d => execBcs d s
  | .clv => execClv s
  | .tsx => execTsx s
  | .cpyImm v => execCpyImm v s c
  | .cpyZp a1 => execCpyZp a1 s c
  | .cpyAbs w => execCpyAbs w s c
  | .cmpImm v => execCmpImm v s c
  | .cmpZp a1 => execCmpZp a1 s c
  | .cmpZpx a1 => execCmpZpx a1 s c
  | .cmpAbs w => execCmpAbs w s c
  | .cmpAbx w => execCmpAbx w s c
  | .cmpAby w => execCmpAby w s c
  | .cmpIzx a1 => execCmpIzx a1 s c
  | .cmpIzy a1 => execCmpIzy a1 s c
  | .decZp a1 => execDecZp a1 s c
  | .decZpx a1 => execDecZpx a1 s c
  | .decAbs w => execDecAbs w s c
  | .decAbx w => execDecAbx w s c
  | .iny => execIny s
  | .dex => execDex s
  | .bne d => execBne d s
  | .cld => execCld s
  | .cpxImm v => execCpxImm v s c
  | .cpxZp a1 => execCpxZp a1 s c
  | .cpxAbs w => execCpxAbs w s c
  | .sbcImm v => execSbcImm v s c
  | .sbcZp a1 => execSbcZp a1 s c
  | .sbcZpx a1 => execSbcZpx a1 s c
  | .sbcAbs w => execSbcAbs w s c
  | .sbcAbx w => execSbcAbx w s c
  | .sbcAby w => execSbcAby w s c
  | .sbcIzx a1 => execSbcIzx a1 s c
  | .sbcIzy a1 => execSbcIzy a1 s c
  | .incZp a1 => execIncZp a1 s c
  | .incZpx a1 => execIncZpx a1 s c
  | .incAbs w => execIncAbs w s c
  | .incAbx w => execIncAbx w s c
  | .inx => execInx s
  | .nop => execNop s
  | .beq d => execBeq d s
  | .sed => execSed s

/-- R15, R34: one step under the parameters `c`. The three fetch reads happen for every opcode, an unrecognized one
included. -/
def stepWith (c : Config) (s : State) : Result :=
  if s.halted then .fault (.halted s.faultRecord)
  else
    match decodeIn c.recognizedSet (fetch s c.bus).op (fetch s c.bus).arg1 (fetch s c.bus).arg2 with
    | .unrecognized op => .next (raiseUnrecognized op (afterFetch s c.bus))
    | .recognized i => execWith c i (afterFetch s c.bus)

end Sys2Proof.Machine
end

