-- ==== Sys2Proof/Machine/HostActions.lean ====
section
/-! DEFINITION. The host interface (60_exceptions.md R245): reset, step, and writes of the bus between steps, under any
parameters. -/

namespace Sys2Proof.Machine

/-- R260, R261: `reset()` at any point between steps, from Halted too: the values of R36, with `PC` from the vector as
the bus then holds it. Nothing is written (R263). -/
def hostReset (s : State) (b : Bus := ramBus) : State := State.resetWith s.mem b

/-- R65: the host or a peripheral changes one bus cell between two steps; the core's registers are not touched (R245). -/
def hostWrite (addr : Addr) (v : Byte) (s : State) (b : Bus := ramBus) : State := s.writeByte addr v b

/-- R13, R65, R245: what the host may do. -/
inductive HostAction where
  | reset
  | step
  | write (addr : Addr) (v : Byte)
deriving DecidableEq, Repr

/-- R234, R245: one host action. A step request on a Halted core does nothing, so the host can still reset it. -/
def act (h : HostAction) (s : State) (c : Config := standardConfig) : Result :=
  match h with
  | .reset => .next (hostReset s c.bus)
  | .step => if s.halted then .next s else stepWith c s
  | .write addr v => .next (hostWrite addr v s c.bus)

/-- R245, R247: host actions in order, until one has no next state. -/
def actAll (hs : List HostAction) (s : State) (c : Config := standardConfig) : Result :=
  match hs with
  | [] => .next s
  | h :: hs =>
    match act h s c with
    | .next t => actAll hs t c
    | .fault f => .fault f
    | .refused r => .refused r

end Sys2Proof.Machine
end

