-- ==== Sys2Proof/Machine/Bus.lean ====
section
/-! DEFINITION. The bus accesses of a step, in order (20_memory.md R56, R57), and of a reset (70_reset_and_hazards.md
R260), under any parameters. On plain RAM they are not observable; they are what another `BUS` sees. -/

namespace Sys2Proof.Machine

/-- One byte access (R54): the address, and the byte read or written. -/
inductive BusAccess where
  | read (addr : Addr) (v : Byte)
  | write (addr : Addr) (v : Byte)
deriving DecidableEq, Repr

/-- A read of `addr`, with the byte the bus answers. -/
def readAccess (s : State) (addr : Addr) (b : Bus := ramBus) : BusAccess := .read addr (s.readByte addr b)

/-- Two reads, of `lo` and then of `hi`. -/
def readPair (s : State) (lo hi : Addr) (b : Bus := ramBus) : List BusAccess :=
  [readAccess s lo b, readAccess (s.afterRead lo b) hi b]

/-- R56 step 1: the three fetch reads, made for every opcode. -/
def fetchAccesses (s : State) (b : Bus := ramBus) : List BusAccess :=
  readPair s s.pc (s.pc + 1) b ++ [readAccess ((s.afterRead s.pc b).afterRead (s.pc + 1) b) (s.pc + 2) b]

/-- R56 step 2: the pointer reads of (zp,X), (zp),Y and JMP (ind), low byte first; no other mode reads. -/
def resolverAccesses (m : Mode) (s : State) (b : Bus := ramBus) : List BusAccess :=
  match m with
  | .mem (.izx a1) => readPair s (zext16 (a1 + s.x)) (zext16 (a1 + s.x + 1)) b
  | .mem (.izy a1) => readPair s (zext16 a1) (zext16 (a1 + 1)) b
  | .ind w => readPair s w (ofHiLo (hiByte w) (loByte w + 1)) b
  | .imp | .acc | .imm _ | .rel _ => []
  | .mem (.zp _) | .mem (.zpx _) | .mem (.zpy _) | .mem (.abs _) | .mem (.abx _) | .mem (.aby _) => []

/-- R56 step 3 for a read-class instruction: one read of `ea` in a memory mode. -/
def readAccesses (o : Operand) (s : State) (b : Bus := ramBus) : List BusAccess :=
  match o with
  | .mem ea => [readAccess s ea b]
  | .none | .imm _ | .acc | .rel _ | .target _ => []

/-- R56 step 3 for a store: one write of `ea`, with no read of it. -/
def storeAccesses (o : Operand) (v : Byte) : List BusAccess :=
  match o with
  | .mem ea => [.write ea v]
  | .none | .imm _ | .acc | .rel _ | .target _ => []

/-- R56 step 3 for a read-modify-write: one read of `ea`, then one write, in a memory mode. -/
def modifyAccesses (o : Operand) (f : Byte → Byte) (s : State) (b : Bus := ramBus) : List BusAccess :=
  match o with
  | .mem ea => [readAccess s ea b, .write ea (f (s.readByte ea b))]
  | .none | .imm _ | .acc | .rel _ | .target _ => []

/-- R170: the write of a `push8`. -/
def pushAccess (s : State) (v : Byte) : BusAccess := .write (stackAddr s.sp) v

/-- R171: the read of a `pop8`. -/
def popAccess (s : State) (b : Bus := ramBus) : BusAccess := readAccess s (stackAddr (s.sp + 1)) b

/-- R56 step 3: JSR and BRK push `PC + 2`, the high byte and then the low byte (R172). -/
def pushPcAccesses (s : State) (b : Bus := ramBus) : List BusAccess :=
  [pushAccess s (hiByte (s.pc + 2)), pushAccess (s.push8 (hiByte (s.pc + 2)) b) (loByte (s.pc + 2))]

/-- R56 step 3 for BRK: three writes, then the two vector reads. -/
def breakAccesses (vector : Addr) (s : State) (b : Bus := ramBus) : List BusAccess :=
  let saved := s.push16 (s.pc + 2) b
  let pushed := saved.push8 (packStatus s) b
  pushPcAccesses s b ++ pushAccess saved (packStatus s) :: readPair pushed vector (vector + 1) b

/-- R56 step 3: the accesses of the execution of an instruction, from the state the fetch leaves. The data accesses come
after the resolver's. -/
def executeAccesses (i : Instr) (s : State) (c : Config := standardConfig) : List BusAccess :=
  let o := resolve i.mode s c.bus
  let r := afterResolve i.mode s c.bus
  match i.mnemonic with
  | .lda | .ldx | .ldy | .adc | .sbc | .and | .ora | .eor | .cmp | .cpx | .cpy | .bit => readAccesses o r c.bus
  | .sta => storeAccesses o s.a
  | .stx => storeAccesses o s.x
  | .sty => storeAccesses o s.y
  | .asl => modifyAccesses o (fun old => (asl old).value) r c.bus
  | .lsr => modifyAccesses o (fun old => (lsr old).value) r c.bus
  | .rol => modifyAccesses o (fun old => (rol old s.flagC).value) r c.bus
  | .ror => modifyAccesses o (fun old => (ror old s.flagC).value) r c.bus
  | .inc => modifyAccesses o (fun old => old + 1) r c.bus
  | .dec => modifyAccesses o (fun old => old - 1) r c.bus
  | .pha => [pushAccess s s.a]
  | .php => [pushAccess s (packStatus s)]
  | .pla | .plp => [popAccess s c.bus]
  | .jsr => pushPcAccesses s c.bus
  | .rts => [popAccess s c.bus, popAccess (s.pop8 c.bus) c.bus]
  | .brk => breakAccesses c.brkVector s c.bus
  | .rti => [popAccess s c.bus, popAccess (s.pop8 c.bus) c.bus, popAccess ((s.pop8 c.bus).pop8 c.bus) c.bus]
  | .bpl | .bmi | .bvc | .bvs | .bcc | .bcs | .bne | .beq | .jmp | .clc | .sec | .cli | .sei | .clv | .cld
  | .sed | .nop | .tax | .tay | .txa | .tya | .tsx | .txs | .inx | .iny | .dex | .dey => []

/-- R56, R57: all the bus accesses of a step, in order: none for a Halted core, which has no step (R234). -/
def busAccesses (s : State) (c : Config := standardConfig) : List BusAccess :=
  if s.halted then []
  else
    match decodeIn c.recognizedSet (fetch s c.bus).op (fetch s c.bus).arg1 (fetch s c.bus).arg2 with
    | .unrecognized _ => fetchAccesses s c.bus
    | .recognized i =>
      fetchAccesses s c.bus ++ resolverAccesses i.mode (afterFetch s c.bus) c.bus ++ executeAccesses i (afterFetch s c.bus) c

/-- R260: a reset reads 0xFFFC and then 0xFFFD, and writes nothing (decision D6). -/
def resetAccesses (s : State) (b : Bus := ramBus) : List BusAccess := readPair s 0xFFFC 0xFFFD b

/-- The bus contents after a list of accesses: on RAM a read changes nothing and a write sets its cell (R52). -/
def replay (l : List BusAccess) (m : Memory) (b : Bus := ramBus) : Memory :=
  match l with
  | [] => m
  | .read a _ :: l => replay l (b.afterRead m a) b
  | .write a v :: l => replay l (b.write m a v) b

/-- Every read of the list answers what the bus then gives (R61). -/
def readsAgree (l : List BusAccess) (m : Memory) (b : Bus := ramBus) : Bool :=
  match l with
  | [] => true
  | .read a v :: l => b.read m a == v && readsAgree l (b.afterRead m a) b
  | .write a v :: l => readsAgree l (b.write m a v) b

end Sys2Proof.Machine
end

