-- ==== Sys2Proof/Safety.lean ====
section
/-! DEFINITION. The words in which claims about runs are made (60_exceptions.md R234, R247): running, halting, hanging,
reaching an end address; and the invariant of the machine. A halted run is never a successful one unless the claim names
the halt as its end. -/

namespace Sys2Proof.Safety

open Sys2Proof.Machine

/-- R234: the state Running. -/
def Running (s : State) : Prop := s.halted = false

/-- One step leads from `s` to `t`. -/
def Steps (s t : State) : Prop := step s = .next t

/-- Some number of steps leads from `s` to `t`. -/
inductive Reaches (s : State) : State → Prop where
  | refl : Reaches s s
  | tail {t u : State} (h : Reaches s t) (hs : Steps t u) : Reaches s u

/-- R247: after `k` steps the core is Halted with this fault record. -/
def HaltsWith (k : Nat) (s : State) (r : FaultRecord) : Prop :=
  ∃ t, Sys2Proof.core.run k s = .next t ∧ t.halted = true ∧ t.faultRecord = some r

/-- R247: a run that never halts. -/
def NeverHalts (s : State) : Prop := ∀ t, Reaches s t → Running t

/-- R247: the end condition "`PC` reaches the address `e`", on a core that is still Running. -/
def ReachesAddress (s : State) (e : Addr) : Prop := ∃ t, Reaches s t ∧ Running t ∧ t.pc = e

/-- A safe run of `k` steps: the core takes them all and is Running after each. -/
def SafeFor (k : Nat) (s : State) : Prop := ∀ j, j ≤ k → ∃ t, Sys2Proof.core.run j s = .next t ∧ Running t

/-- R32, R231, R234: the core holds a fault record exactly while it is Halted, and the record names `PC` and an
unrecognized opcode. -/
def HaltConsistent (s : State) : Prop :=
  if s.halted then ∃ op, s.faultRecord = some { pc := s.pc, opcode := op } ∧ ∀ b1 b2, decodeBytes op b1 b2 = .unrecognized op
  else s.faultRecord = none

/-- The invariant of the machine: the bus contents keep their canonical form, and the halt is consistent. -/
def Inv (s : State) : Prop := s.mem.wf = true ∧ HaltConsistent s

end Sys2Proof.Safety
end

