-- ==== Sys2Proof/WellFormed.lean ====
section
/-! DEFINITION. Well-formed instructions. Every operand value is legal for every recognized opcode (30_encoding.md R77),
so the one check is that the opcode byte is in the parameter `RECOGNIZED_SET` (R2, R76). -/

namespace Sys2Proof

/-- R2, R76, R77: the instruction's opcode byte is one of those that execute under the parameters `c`. -/
abbrev Instr.WellFormed (c : Config) (i : Instr) : Prop := c.recognizedSet.contains i.opcode = true

/-- The columns of an instruction's row in spec/opcode_table.json: mode, opcode byte and length. -/
def Instr.row (i : Instr) : ModeName × Byte × Nat := (i.mode.name, i.opcode, i.length)

end Sys2Proof
end

