-- ==== Sys2Proof/Certificates/Slice0/Obligations.lean ====
section
/-! DEFINITION. What the provers are asked to prove of the model: statements of the spec's rules. A statement that rests on
one of the spec's own decisions, or on a choice of the model's, says so in its docstring. -/

namespace Sys2Proof.Claims

open Sys2Proof.Machine

/-- Part of the table of modes per mnemonic (30_encoding.md R75). -/
def modesAToC : List (Mnemonic × List (ModeName × Byte)) :=
  [(.adc, [(.imm, 0x69), (.zp, 0x65), (.zpx, 0x75), (.abs, 0x6D), (.abx, 0x7D), (.aby, 0x79), (.izx, 0x61), (.izy, 0x71)]),
   (.and, [(.imm, 0x29), (.zp, 0x25), (.zpx, 0x35), (.abs, 0x2D), (.abx, 0x3D), (.aby, 0x39), (.izx, 0x21), (.izy, 0x31)]),
   (.asl, [(.acc, 0x0A), (.zp, 0x06), (.zpx, 0x16), (.abs, 0x0E), (.abx, 0x1E)]),
   (.bcc, [(.rel, 0x90)]),
   (.bcs, [(.rel, 0xB0)]),
   (.beq, [(.rel, 0xF0)]),
   (.bmi, [(.rel, 0x30)]),
   (.bne, [(.rel, 0xD0)]),
   (.bpl, [(.rel, 0x10)]),
   (.bvc, [(.rel, 0x50)]),
   (.bvs, [(.rel, 0x70)]),
   (.bit, [(.zp, 0x24), (.abs, 0x2C)]),
   (.brk, [(.imp, 0x00)]),
   (.clc, [(.imp, 0x18)]),
   (.cld, [(.imp, 0xD8)]),
   (.cli, [(.imp, 0x58)]),
   (.clv, [(.imp, 0xB8)]),
   (.cmp, [(.imm, 0xC9), (.zp, 0xC5), (.zpx, 0xD5), (.abs, 0xCD), (.abx, 0xDD), (.aby, 0xD9), (.izx, 0xC1), (.izy, 0xD1)]),
   (.cpx, [(.imm, 0xE0), (.zp, 0xE4), (.abs, 0xEC)]),
   (.cpy, [(.imm, 0xC0), (.zp, 0xC4), (.abs, 0xCC)])]

/-- Part of the table of modes per mnemonic (30_encoding.md R75). -/
def modesDToL : List (Mnemonic × List (ModeName × Byte)) :=
  [(.dec, [(.zp, 0xC6), (.zpx, 0xD6), (.abs, 0xCE), (.abx, 0xDE)]),
   (.dex, [(.imp, 0xCA)]),
   (.dey, [(.imp, 0x88)]),
   (.eor, [(.imm, 0x49), (.zp, 0x45), (.zpx, 0x55), (.abs, 0x4D), (.abx, 0x5D), (.aby, 0x59), (.izx, 0x41), (.izy, 0x51)]),
   (.inc, [(.zp, 0xE6), (.zpx, 0xF6), (.abs, 0xEE), (.abx, 0xFE)]),
   (.inx, [(.imp, 0xE8)]),
   (.iny, [(.imp, 0xC8)]),
   (.jmp, [(.abs, 0x4C), (.ind, 0x6C)]),
   (.jsr, [(.abs, 0x20)]),
   (.lda, [(.imm, 0xA9), (.zp, 0xA5), (.zpx, 0xB5), (.abs, 0xAD), (.abx, 0xBD), (.aby, 0xB9), (.izx, 0xA1), (.izy, 0xB1)]),
   (.ldx, [(.imm, 0xA2), (.zp, 0xA6), (.zpy, 0xB6), (.abs, 0xAE), (.aby, 0xBE)]),
   (.ldy, [(.imm, 0xA0), (.zp, 0xA4), (.zpx, 0xB4), (.abs, 0xAC), (.abx, 0xBC)]),
   (.lsr, [(.acc, 0x4A), (.zp, 0x46), (.zpx, 0x56), (.abs, 0x4E), (.abx, 0x5E)])]

/-- Part of the table of modes per mnemonic (30_encoding.md R75). -/
def modesNToR : List (Mnemonic × List (ModeName × Byte)) :=
  [(.nop, [(.imp, 0xEA)]),
   (.ora, [(.imm, 0x09), (.zp, 0x05), (.zpx, 0x15), (.abs, 0x0D), (.abx, 0x1D), (.aby, 0x19), (.izx, 0x01), (.izy, 0x11)]),
   (.pha, [(.imp, 0x48)]),
   (.php, [(.imp, 0x08)]),
   (.pla, [(.imp, 0x68)]),
   (.plp, [(.imp, 0x28)]),
   (.rol, [(.acc, 0x2A), (.zp, 0x26), (.zpx, 0x36), (.abs, 0x2E), (.abx, 0x3E)]),
   (.ror, [(.acc, 0x6A), (.zp, 0x66), (.zpx, 0x76), (.abs, 0x6E), (.abx, 0x7E)]),
   (.rti, [(.imp, 0x40)]),
   (.rts, [(.imp, 0x60)])]

/-- Part of the table of modes per mnemonic (30_encoding.md R75). -/
def modesSToT : List (Mnemonic × List (ModeName × Byte)) :=
  [(.sbc, [(.imm, 0xE9), (.zp, 0xE5), (.zpx, 0xF5), (.abs, 0xED), (.abx, 0xFD), (.aby, 0xF9), (.izx, 0xE1), (.izy, 0xF1)]),
   (.sec, [(.imp, 0x38)]),
   (.sed, [(.imp, 0xF8)]),
   (.sei, [(.imp, 0x78)]),
   (.sta, [(.zp, 0x85), (.zpx, 0x95), (.abs, 0x8D), (.abx, 0x9D), (.aby, 0x99), (.izx, 0x81), (.izy, 0x91)]),
   (.stx, [(.zp, 0x86), (.zpy, 0x96), (.abs, 0x8E)]),
   (.sty, [(.zp, 0x84), (.zpx, 0x94), (.abs, 0x8C)]),
   (.tax, [(.imp, 0xAA)]),
   (.tay, [(.imp, 0xA8)]),
   (.tsx, [(.imp, 0xBA)]),
   (.txa, [(.imp, 0x8A)]),
   (.txs, [(.imp, 0x9A)]),
   (.tya, [(.imp, 0x98)])]

/-- The table of modes per mnemonic (30_encoding.md R75), transcribed from its text. -/
def modesPerMnemonic : List (Mnemonic × List (ModeName × Byte)) :=
  modesAToC ++ modesDToL ++ modesNToR ++ modesSToT

/-- The 105 unrecognized bytes (30_encoding.md R76), transcribed from its text. -/
def unrecognizedBytes : List Byte :=
  [0x02, 0x03, 0x04, 0x07, 0x0B, 0x0C, 0x0F, 0x12, 0x13, 0x14, 0x17, 0x1A, 0x1B, 0x1C, 0x1F, 0x22, 0x23, 0x27, 0x2B, 0x2F, 0x32] ++
  [0x33, 0x34, 0x37, 0x3A, 0x3B, 0x3C, 0x3F, 0x42, 0x43, 0x44, 0x47, 0x4B, 0x4F, 0x52, 0x53, 0x54, 0x57, 0x5A, 0x5B, 0x5C, 0x5F] ++
  [0x62, 0x63, 0x64, 0x67, 0x6B, 0x6F, 0x72, 0x73, 0x74, 0x77, 0x7A, 0x7B, 0x7C, 0x7F, 0x80, 0x82, 0x83, 0x87, 0x89, 0x8B, 0x8F] ++
  [0x92, 0x93, 0x97, 0x9B, 0x9C, 0x9E, 0x9F, 0xA3, 0xA7, 0xAB, 0xAF, 0xB2, 0xB3, 0xB7, 0xBB, 0xBF, 0xC2, 0xC3, 0xC7, 0xCB, 0xCF] ++
  [0xD2, 0xD3, 0xD4, 0xD7, 0xDA, 0xDB, 0xDC, 0xDF, 0xE2, 0xE3, 0xE7, 0xEB, 0xEF, 0xF2, 0xF3, 0xF4, 0xF7, 0xFA, 0xFB, 0xFC, 0xFF]

/-- The length column of the formats table (30_encoding.md R71). -/
def formatLength (m : ModeName) : Nat :=
  if m ∈ [.imp, .acc] then 1 else if m ∈ [.abs, .abx, .aby, .ind] then 3 else 2

/-- The writers of N and Z in the flag table (10_state.md R27). -/
def nzWriters : List Mnemonic :=
  [.lda, .ldx, .ldy, .tax, .tay, .txa, .tya, .tsx, .txs, .pla, .and, .ora, .eor, .adc, .sbc, .cmp, .cpx, .cpy, .bit, .inc, .dec, .inx, .iny, .dex, .dey, .asl, .lsr, .rol, .ror, .plp, .rti]

/-- `i` completes from `s` by storing `v` in the cell its mode resolves to: no other cell, register or flag changes. -/
def StoresByte (i : Instr) (s : State) (v : Byte) : Prop :=
  ∃ ea t, resolve i.mode s = .mem ea ∧ exec i s = .next t ∧
    t = { s with mem := t.mem, pc := s.pc + BitVec.ofNat 16 i.length } ∧
    ∀ b, t.mem.read b = if b = ea then v else s.mem.read b

/-- The byte of the handle `o` was `old` in `s` and is `new` in `t`; if the handle is a bus cell A is unchanged and every
other cell reads as before, and if it is the accumulator the bus is unchanged. -/
def HandleRewritten (o : Operand) (s t : State) (old new : Byte) : Prop :=
  (o = .acc ∧ old = s.a ∧ t.a = new ∧ t.mem = s.mem) ∨
    ∃ ea, o = .mem ea ∧ old = s.mem.read ea ∧ t.a = s.a ∧ ∀ b, t.mem.read b = if b = ea then new else s.mem.read b

/-- `p` is the status byte of the flags of `s` (10_state.md R29). -/
def StatusByteOf (s : State) (p : Byte) : Prop :=
  p.getLsbD 7 = s.flagN ∧ p.getLsbD 6 = s.flagV ∧ p.getLsbD 5 = false ∧ p.getLsbD 4 = false ∧ p.getLsbD 3 = false ∧
    p.getLsbD 2 = s.flagI ∧ p.getLsbD 1 = s.flagZ ∧ p.getLsbD 0 = s.flagC

/-- The branch `i` with displacement `d` completes from `s`, changing only `PC`: by 2 plus the signed displacement when
`cond` holds, and by 2 when it does not, modulo 65536 (45_control.md R191). -/
def BranchesWhen (i : Instr) (d : Byte) (cond : Prop) (s : State) : Prop :=
  ∃ t, exec i s = .next t ∧ t = { s with pc := t.pc } ∧
    (cond → (t.pc.toNat : Int) = ((s.pc.toNat : Int) + 2 + d.toInt) % 65536) ∧
    (¬ cond → t.pc.toNat = (s.pc.toNat + 2) % 65536)

/-- `t` is the state in which BRK leaves `s` when the vector is at `vector` (45_control.md R203). -/
def EntersBreak (vector : Addr) (s t : State) : Prop :=
  t = { s with sp := s.sp - 3, flagI := true, pc := t.pc, mem := t.mem } ∧
    t.pc = ofHiLo (t.mem.read (vector + 1)) (t.mem.read vector) ∧
    t.mem.read (0x0100 + s.sp.setWidth 16) = hiByte (s.pc + 2) ∧
    t.mem.read (0x0100 + (s.sp - 1).setWidth 16) = loByte (s.pc + 2) ∧
    StatusByteOf s (t.mem.read (0x0100 + (s.sp - 2).setWidth 16)) ∧
    ∀ b : Addr, b ≠ 0x0100 + s.sp.setWidth 16 → b ≠ 0x0100 + (s.sp - 1).setWidth 16 →
      b ≠ 0x0100 + (s.sp - 2).setWidth 16 → t.mem.read b = s.mem.read b

/-- The addresses an instruction stores to (20_memory.md R56): the cell its mode resolves to, for a store or a
read-modify-write in a memory mode; the stack cells it pushes; none for every other instruction. -/
def storedAddresses (i : Instr) (s : State) : List Addr :=
  if i.mnemonic ∈ [.sta, .stx, .sty, .asl, .lsr, .rol, .ror, .inc, .dec] then
    match resolve i.mode s with
    | .mem ea => [ea]
    | _ => []
  else if i.mnemonic ∈ [.pha, .php] then [stackAddr s.sp]
  else if i.mnemonic = .jsr then [stackAddr s.sp, stackAddr (s.sp - 1)]
  else if i.mnemonic = .brk then [stackAddr s.sp, stackAddr (s.sp - 1), stackAddr (s.sp - 2)]
  else []

/-- The bytes an instruction stores, with their addresses, in order (20_memory.md R56): the new byte of the cell its mode
resolves to, for a store or a read-modify-write in a memory mode; the bytes it pushes; none for every other instruction. -/
def storedBytes (i : Instr) (s : State) : List (Addr × Byte) :=
  let cell (f : Byte → Byte) : List (Addr × Byte) :=
    match resolve i.mode s with
    | .mem ea => [(ea, f (s.mem.read ea))]
    | _ => []
  let pushedPc : List (Addr × Byte) := [(stackAddr s.sp, hiByte (s.pc + 2)), (stackAddr (s.sp - 1), loByte (s.pc + 2))]
  match i.mnemonic with
  | .sta => cell fun _ => s.a
  | .stx => cell fun _ => s.x
  | .sty => cell fun _ => s.y
  | .asl => cell fun old => (asl old).value
  | .lsr => cell fun old => (lsr old).value
  | .rol => cell fun old => (rol old s.flagC).value
  | .ror => cell fun old => (ror old s.flagC).value
  | .inc => cell fun old => old + 1
  | .dec => cell fun old => old - 1
  | .pha => [(stackAddr s.sp, s.a)]
  | .php => [(stackAddr s.sp, packStatus s)]
  | .jsr => pushedPc
  | .brk => pushedPc ++ [(stackAddr (s.sp - 2), packStatus s)]
  | _ => []

/-- The byte at an address after the bytes of the list are stored in order over `m`. -/
def latest (stored : List (Addr × Byte)) (m : Memory) (a : Addr) : Byte :=
  stored.foldl (fun v p => if p.1 = a then p.2 else v) (m.read a)

/-- The instructions that write `PC` by their own rule (10_state.md R25). -/
def pcWriters : List Mnemonic :=
  [.jmp, .jsr, .rts, .brk, .rti, .bpl, .bmi, .bvc, .bvs, .bcc, .bcs, .bne, .beq]

/-- The buses of two states differ in bit 2 of the byte at `cell` at most. -/
def DiffersInStatusBit2 (cell : Addr) (t u : State) : Prop :=
  (∀ a, a ≠ cell → u.mem.read a = t.mem.read a) ∧
    ∀ k, k ≠ 2 → (u.mem.read cell).getLsbD k = (t.mem.read cell).getLsbD k

/-- The state after pushing the bytes of a list, the first one first. -/
def pushedAll : List Byte → State → State
  | [], s => s
  | v :: vs, s => pushedAll vs (s.push8 v)

/-- The `k` bytes that `k` pulls answer, the first one first. -/
def pulledBytes : Nat → State → List Byte
  | 0, _ => []
  | k + 1, s => s.pop8Value :: pulledBytes k s.pop8

/-- The state after `k` pulls. -/
def pulledAll : Nat → State → State
  | 0, s => s
  | k + 1, s => pulledAll k s.pop8

end Sys2Proof.Claims

open Sys2Proof Sys2Proof.Machine Sys2Proof.Claims Sys2Proof.Safety

/-- Decode and encode agree, for all 151 instructions and every operand value. The opcode bytes are the spec's decision D2. -/
def Obligations.DecodeInvertsEncode : Prop :=
  ∀ (i : Instr) (rest : List Byte), i.WellFormed standardConfig ∧ decode (encode i ++ rest) = .ok (i, rest)

/-- The other direction of the round trip: the decoder drops no bit of the bytes it reads. -/
def Obligations.EncodeInvertsDecode : Prop :=
  ∀ (bytes rest : List Byte) (i : Instr), decode bytes = .ok (i, rest) → bytes = encode i ++ rest

/-- The table of modes per mnemonic (30_encoding.md, decision D2), transcribed from its text, against the decoder. -/
def Obligations.OpcodeMapAsTabulated : Prop :=
  ∀ row ∈ modesPerMnemonic, ∀ e ∈ row.2, ∀ b1 b2 : Byte, ∃ i, decodeBytes e.2 b1 b2 = .recognized i ∧
    i.mnemonic = row.1 ∧ i.mode.name = e.1 ∧ i.length = formatLength e.1 ∧ encode i = [e.2, b1, b2].take (formatLength e.1)

/-- The 105 unrecognized bytes (30_encoding.md, decision D2). -/
def Obligations.OtherBytesUnrecognized : Prop :=
  unrecognizedBytes.length = 105 ∧
    ∀ op b1 b2 : Byte, decodeBytes op b1 b2 = .unrecognized op ↔ op ∈ unrecognizedBytes

/-- Words written out from the spec's examples. -/
def Obligations.SampleWordsDecode : Prop :=
  ∀ b c : Byte,
    decodeBytes 0xA9 0x05 c = .recognized (.ldaImm 0x05) ∧ decodeBytes 0x20 0x34 0x12 = .recognized (.jsr 0x1234) ∧
    decodeBytes 0x60 b c = .recognized .rts ∧ decodeBytes 0xC9 0x10 c = .recognized (.cmpImm 0x10) ∧
    decodeBytes 0xF0 0xFE c = .recognized (.beq 0xFE) ∧ decodeBytes 0x06 0x10 c = .recognized (.aslZp 0x10) ∧
    decodeBytes 0x96 0xF8 c = .recognized (.stxZpy 0xF8) ∧ decodeBytes 0x69 0x50 c = .recognized (.adcImm 0x50) ∧
    decodeBytes 0x48 b c = .recognized .pha ∧ decodeBytes 0x18 b c = .recognized .clc ∧
    decodeBytes 0x6C 0xFF 0x02 = .recognized (.jmpInd 0x02FF)

/-- `step()` as 10_state.md gives it. `exec` writes `PC` itself, so a step adds nothing to it. That the halt on an
unrecognized opcode is a next state is the model's choice (log entry 2). -/
def Obligations.StepFetchesDecodesAndRuns : Prop :=
  ∀ s : State,
    (s.halted = false → ∀ i, decodeBytes (s.mem.read s.pc) (s.mem.read (s.pc + 1)) (s.mem.read (s.pc + 2)) =
      .recognized i → step s = exec i s) ∧
    (s.halted = false → ∀ op, decodeBytes (s.mem.read s.pc) (s.mem.read (s.pc + 1)) (s.mem.read (s.pc + 2)) =
      .unrecognized op → ∃ r, step s = .next { s with halted := true, faultRecord := r }) ∧
    (s.halted = true → ∀ t, step s ≠ .next t)

/-- UnrecognizedOpcode is taken as a next state (log entry 2): `halted` is set, the record made (decision D23), all else kept. -/
def Obligations.UnrecognizedOpcodeHalts : Prop :=
  ∀ s : State, s.halted = false → s.mem.read s.pc ∈ unrecognizedBytes →
    step s = .next { s with halted := true, faultRecord := some { pc := s.pc, opcode := s.mem.read s.pc } }

/-- A host write between steps, running or halted, sets its one cell (decision D5, log entry 10); Halted is terminal until
a host reset (decisions D6 and D7, log entries 11 and 3); how `step` answers there is log entry 2. -/
def Obligations.HaltedIsTerminal : Prop :=
  (∀ (s : State) (addr : Addr) (v : Byte), ∃ m, act (.write addr v) s = .next { s with mem := m } ∧
    ∀ b, m.read b = if b = addr then v else s.mem.read b) ∧
  ∀ s : State, s.halted = true →
    step s = .fault (.halted s.faultRecord) ∧ act .step s = .next s ∧
    ∃ t, act .reset s = .next t ∧ t.halted = false ∧ t.faultRecord = none

/-- No recognized instruction raises anything: exec is total over every operand value, stack pointer and flag combination. -/
def Obligations.RecognizedInstructionsComplete : Prop :=
  ∀ (i : Instr) (s : State), ∃ t, exec i s = .next t ∧ t.halted = s.halted ∧ t.faultRecord = s.faultRecord

/-- The invariant of the machine, kept by every step from every state that has it. -/
def Obligations.StepKeepsInvariant : Prop :=
  ∀ s t : State, Inv s → step s = .next t → Inv t

/-- The invariant over whole host sessions, for every value of the parameter INIT_MEM. That a reset core holds no fault
record is the model's inference (log entry 3); host writes and repeated resets are decisions D5 and D6 (log entries 10 and
11). -/
def Obligations.HostRunsKeepInvariant : Prop :=
  ∀ (hs : List HostAction) (m : Memory) (t : State), m.wf = true → actAll hs (State.resetWith m) = .next t → Inv t

/-- The invariant holds after reset. That a reset core holds no fault record is the model's inference (log entry 3), and
the canonical form of the bus is its representation (log entry 1). -/
def Obligations.ResetHasInvariant : Prop :=
  Inv State.reset ∧ ∀ m : Memory, m.wf = true → Inv (State.resetWith m)

/-- The reset values of 10_state.md section 9. That a reset may be taken again, and from Halted, is decision D6 (log
entry 11). -/
def Obligations.ResetValues : Prop :=
  (∀ s : State, ∃ t, act .reset s = .next t ∧ t.a = 0 ∧ t.x = 0 ∧ t.y = 0 ∧ t.sp = 0xFF ∧
    t.pc.toNat = 256 * (s.mem.read 0xFFFD).toNat + (s.mem.read 0xFFFC).toNat ∧
    t.flagC = false ∧ t.flagZ = false ∧ t.flagI = false ∧ t.flagD = false ∧ t.flagV = false ∧ t.flagN = false ∧
    t.halted = false ∧ t.mem = s.mem) ∧
  act .reset State.reset = .next State.reset

/-- R94 to R96: the zero-page modes. -/
def Obligations.ZeroPageModesWrap : Prop :=
  (∀ (a1 : Byte) (s : State),
    (∃ ea, resolve (.mem (.zp a1)) s = .mem ea ∧ ea.toNat = a1.toNat) ∧
    (∃ ea, resolve (.mem (.zpx a1)) s = .mem ea ∧ ea.toNat = (a1.toNat + s.x.toNat) % 256) ∧
    (∃ ea, resolve (.mem (.zpy a1)) s = .mem ea ∧ ea.toNat = (a1.toNat + s.y.toNat) % 256)) ∧
  ∀ i : Instr, i.mode.name = .zpy → i.row ∈ [(.zpy, 0xB6, 2), (.zpy, 0x96, 2)] ∧ (i.mnemonic = .ldx ∨ i.mnemonic = .stx)

/-- R97 to R99: the absolute modes. -/
def Obligations.AbsoluteModesWrap : Prop :=
  ∀ (b1 b2 : Byte) (s : State),
    (∃ ea, resolve (.mem (.abs (ofHiLo b2 b1))) s = .mem ea ∧ ea.toNat = b2.toNat * 256 + b1.toNat) ∧
    (∃ ea, resolve (.mem (.abx (ofHiLo b2 b1))) s = .mem ea ∧
      ea.toNat = (b2.toNat * 256 + b1.toNat + s.x.toNat) % 65536) ∧
    (∃ ea, resolve (.mem (.aby (ofHiLo b2 b1))) s = .mem ea ∧
      ea.toNat = (b2.toNat * 256 + b1.toNat + s.y.toNat) % 65536)

/-- R100, R101: the two indirect modes of the zero page. -/
def Obligations.ZeroPagePointers : Prop :=
  ∀ (a1 : Byte) (s : State),
    (∃ ea p q : Addr, resolve (.mem (.izx a1)) s = .mem ea ∧ p.toNat = (a1.toNat + s.x.toNat) % 256 ∧
      q.toNat = (a1.toNat + s.x.toNat + 1) % 256 ∧ ea.toNat = (s.mem.read q).toNat * 256 + (s.mem.read p).toNat) ∧
    (∃ ea p q : Addr, resolve (.mem (.izy a1)) s = .mem ea ∧ p.toNat = a1.toNat ∧ q.toNat = (a1.toNat + 1) % 256 ∧
      ea.toNat = ((s.mem.read q).toNat * 256 + (s.mem.read p).toNat + s.y.toNat) % 65536)

/-- R102: the page-wrap bug of JMP (abs). -/
def Obligations.JmpIndirectPageWrap : Prop :=
  (∀ (b1 b2 : Byte) (s : State), resolve (.ind (ofHiLo b2 b1)) s =
    .target (ofHiLo (s.mem.read (ofHiLo b2 (b1 + 1))) (s.mem.read (ofHiLo b2 b1)))) ∧
  (∀ s : State, resolve (.ind 0x02FF) s = .target (ofHiLo (s.mem.read 0x0200) (s.mem.read 0x02FF))) ∧
  ∀ i : Instr, i.mode.name = .ind → i.mnemonic = .jmp

/-- R90, R92: the operand kinds and the accumulator handle. -/
def Obligations.OperandKinds : Prop :=
  ∀ (b : Byte) (w : Addr) (m : MemMode) (s : State),
    resolve .imp s = .none ∧ resolve .acc s = .acc ∧ resolve (.imm b) s = .imm b ∧ resolve (.rel b) s = .rel b ∧
    (∃ t, resolve (.ind w) s = .target t) ∧ (∃ ea, resolve (.mem m) s = .mem ea) ∧
    Handle.acc.read s = s.a ∧ Handle.acc.write b s = { s with a := b }

/-- R110 to R112. -/
def Obligations.LoadsWriteTheirRegister : Prop :=
  ∀ (i : Instr) (s : State),
    (i.mnemonic = .lda → i.row ∈ [(.imm, 0xA9, 2), (.zp, 0xA5, 2), (.zpx, 0xB5, 2), (.abs, 0xAD, 3), (.abx, 0xBD, 3), (.aby, 0xB9, 3), (.izx, 0xA1, 2), (.izy, 0xB1, 2)] ∧
      ∃ m, operandValue (resolve i.mode s) s = some m ∧
        exec i s = .next { s with a := m, flagN := decide (128 ≤ m.toNat), flagZ := decide (m = 0), pc := s.pc + BitVec.ofNat 16 i.length }) ∧
    (i.mnemonic = .ldx → i.row ∈ [(.imm, 0xA2, 2), (.zp, 0xA6, 2), (.zpy, 0xB6, 2), (.abs, 0xAE, 3), (.aby, 0xBE, 3)] ∧
      ∃ m, operandValue (resolve i.mode s) s = some m ∧
        exec i s = .next { s with x := m, flagN := decide (128 ≤ m.toNat), flagZ := decide (m = 0), pc := s.pc + BitVec.ofNat 16 i.length }) ∧
    (i.mnemonic = .ldy → i.row ∈ [(.imm, 0xA0, 2), (.zp, 0xA4, 2), (.zpx, 0xB4, 2), (.abs, 0xAC, 3), (.abx, 0xBC, 3)] ∧
      ∃ m, operandValue (resolve i.mode s) s = some m ∧
        exec i s = .next { s with y := m, flagN := decide (128 ≤ m.toNat), flagZ := decide (m = 0), pc := s.pc + BitVec.ofNat 16 i.length })

/-- R113 to R115, with their frame. -/
def Obligations.StoresWriteOneCell : Prop :=
  ∀ (i : Instr) (s : State),
    (i.mnemonic = .sta → i.row ∈ [(.zp, 0x85, 2), (.zpx, 0x95, 2), (.abs, 0x8D, 3), (.abx, 0x9D, 3), (.aby, 0x99, 3), (.izx, 0x81, 2), (.izy, 0x91, 2)] ∧ StoresByte i s s.a) ∧
    (i.mnemonic = .stx → i.row ∈ [(.zp, 0x86, 2), (.zpy, 0x96, 2), (.abs, 0x8E, 3)] ∧ StoresByte i s s.x) ∧
    (i.mnemonic = .sty → i.row ∈ [(.zp, 0x84, 2), (.zpx, 0x94, 2), (.abs, 0x8C, 3)] ∧ StoresByte i s s.y)

/-- R131, R134 and R144. -/
def Obligations.AdcAddsWithCarry : Prop :=
  (∀ (i : Instr) (s : State), i.mnemonic = .adc → i.row ∈ [(.imm, 0x69, 2), (.zp, 0x65, 2), (.zpx, 0x75, 2), (.abs, 0x6D, 3), (.abx, 0x7D, 3), (.aby, 0x79, 3), (.izx, 0x61, 2), (.izy, 0x71, 2)] ∧
    ∃ m t, operandValue (resolve i.mode s) s = some m ∧ exec i s = .next t ∧
      t = { s with a := t.a, flagC := t.flagC, flagV := t.flagV, flagN := decide (128 ≤ t.a.toNat), flagZ := decide (t.a = 0), pc := s.pc + BitVec.ofNat 16 i.length } ∧
      t.a.toNat = (s.a.toNat + m.toNat + s.flagC.toNat) % 256 ∧
      (t.flagC = true ↔ 255 < s.a.toNat + m.toNat + s.flagC.toNat) ∧
      (t.flagV = true ↔ (s.a ^^^ t.a) &&& (m ^^^ t.a) &&& 0x80 ≠ 0) ∧
      (t.flagV = true ↔
        s.a.toInt + m.toInt + (s.flagC.toNat : Int) < -128 ∨ 127 < s.a.toInt + m.toInt + (s.flagC.toNat : Int))) ∧
  ∀ (i : Instr) (s : State) (d : Bool), i.mnemonic = .adc ∨ i.mnemonic = .sbc →
    ∃ t, exec i s = .next t ∧ exec i { s with flagD := d } = .next { t with flagD := d }

/-- SBC (decision D9). -/
def Obligations.SbcSubtractsWithBorrow : Prop :=
  ∀ (i : Instr) (s : State), i.mnemonic = .sbc → i.row ∈ [(.imm, 0xE9, 2), (.zp, 0xE5, 2), (.zpx, 0xF5, 2), (.abs, 0xED, 3), (.abx, 0xFD, 3), (.aby, 0xF9, 3), (.izx, 0xE1, 2), (.izy, 0xF1, 2)] ∧
    ∃ m t, operandValue (resolve i.mode s) s = some m ∧ exec i s = .next t ∧
      t = { s with a := t.a, flagC := t.flagC, flagV := t.flagV, flagN := decide (128 ≤ t.a.toNat), flagZ := decide (t.a = 0), pc := s.pc + BitVec.ofNat 16 i.length } ∧
      (t.a.toNat : Int) = ((s.a.toNat : Int) - m.toNat - (1 - (s.flagC.toNat : Int))) % 256 ∧
      (t.flagC = true ↔ (m.toNat : Int) + (1 - (s.flagC.toNat : Int)) ≤ s.a.toNat) ∧
      (t.flagV = true ↔
        s.a.toInt - m.toInt - (1 - (s.flagC.toNat : Int)) < -128 ∨
        127 < s.a.toInt - m.toInt - (1 - (s.flagC.toNat : Int)))

/-- R136 to R138. -/
def Obligations.LogicalInstructions : Prop :=
  ∀ (i : Instr) (s : State),
    (i.mnemonic = .and → i.row ∈ [(.imm, 0x29, 2), (.zp, 0x25, 2), (.zpx, 0x35, 2), (.abs, 0x2D, 3), (.abx, 0x3D, 3), (.aby, 0x39, 3), (.izx, 0x21, 2), (.izy, 0x31, 2)] ∧
      ∃ m, operandValue (resolve i.mode s) s = some m ∧
        exec i s = .next { s with a := s.a &&& m, flagN := decide (128 ≤ (s.a &&& m).toNat), flagZ := decide ((s.a &&& m) = 0), pc := s.pc + BitVec.ofNat 16 i.length }) ∧
    (i.mnemonic = .ora → i.row ∈ [(.imm, 0x09, 2), (.zp, 0x05, 2), (.zpx, 0x15, 2), (.abs, 0x0D, 3), (.abx, 0x1D, 3), (.aby, 0x19, 3), (.izx, 0x01, 2), (.izy, 0x11, 2)] ∧
      ∃ m, operandValue (resolve i.mode s) s = some m ∧
        exec i s = .next { s with a := s.a ||| m, flagN := decide (128 ≤ (s.a ||| m).toNat), flagZ := decide ((s.a ||| m) = 0), pc := s.pc + BitVec.ofNat 16 i.length }) ∧
    (i.mnemonic = .eor → i.row ∈ [(.imm, 0x49, 2), (.zp, 0x45, 2), (.zpx, 0x55, 2), (.abs, 0x4D, 3), (.abx, 0x5D, 3), (.aby, 0x59, 3), (.izx, 0x41, 2), (.izy, 0x51, 2)] ∧
      ∃ m, operandValue (resolve i.mode s) s = some m ∧
        exec i s = .next { s with a := s.a ^^^ m, flagN := decide (128 ≤ (s.a ^^^ m).toNat), flagZ := decide ((s.a ^^^ m) = 0), pc := s.pc + BitVec.ofNat 16 i.length })

/-- R132, R139 to R141. -/
def Obligations.ComparesSetCarryZeroSign : Prop :=
  ∀ (i : Instr) (s : State),
    (i.mnemonic = .cmp → i.row ∈ [(.imm, 0xC9, 2), (.zp, 0xC5, 2), (.zpx, 0xD5, 2), (.abs, 0xCD, 3), (.abx, 0xDD, 3), (.aby, 0xD9, 3), (.izx, 0xC1, 2), (.izy, 0xD1, 2)] ∧
      ∃ m, operandValue (resolve i.mode s) s = some m ∧
        exec i s = .next { s with
          flagC := decide (m.toNat ≤ s.a.toNat), flagZ := decide (s.a = m),
          flagN := decide (128 ≤ (s.a.toNat + 256 - m.toNat) % 256), pc := s.pc + BitVec.ofNat 16 i.length }) ∧
    (i.mnemonic = .cpx → i.row ∈ [(.imm, 0xE0, 2), (.zp, 0xE4, 2), (.abs, 0xEC, 3)] ∧
      ∃ m, operandValue (resolve i.mode s) s = some m ∧
        exec i s = .next { s with
          flagC := decide (m.toNat ≤ s.x.toNat), flagZ := decide (s.x = m),
          flagN := decide (128 ≤ (s.x.toNat + 256 - m.toNat) % 256), pc := s.pc + BitVec.ofNat 16 i.length }) ∧
    (i.mnemonic = .cpy → i.row ∈ [(.imm, 0xC0, 2), (.zp, 0xC4, 2), (.abs, 0xCC, 3)] ∧
      ∃ m, operandValue (resolve i.mode s) s = some m ∧
        exec i s = .next { s with
          flagC := decide (m.toNat ≤ s.y.toNat), flagZ := decide (s.y = m),
          flagN := decide (128 ≤ (s.y.toNat + 256 - m.toNat) % 256), pc := s.pc + BitVec.ofNat 16 i.length })

/-- R133, R142. -/
def Obligations.BitTestsMemory : Prop :=
  ∀ (i : Instr) (s : State), i.mnemonic = .bit → i.row ∈ [(.zp, 0x24, 2), (.abs, 0x2C, 3)] ∧
    ∃ m, operandValue (resolve i.mode s) s = some m ∧
      exec i s = .next { s with
        flagZ := decide (m &&& s.a = 0), flagV := m.getLsbD 6, flagN := m.getLsbD 7, pc := s.pc + BitVec.ofNat 16 i.length }

/-- R150, R151, R154, R155. -/
def Obligations.ShiftsMoveOneBitOut : Prop :=
  ∀ (i : Instr) (s : State),
    (i.mnemonic = .asl → i.row ∈ [(.acc, 0x0A, 1), (.zp, 0x06, 2), (.zpx, 0x16, 2), (.abs, 0x0E, 3), (.abx, 0x1E, 3)] ∧
      ∃ old new t, exec i s = .next t ∧ HandleRewritten (resolve i.mode s) s t old new ∧
        t = { s with a := t.a, mem := t.mem, flagC := old.getLsbD 7, flagN := decide (128 ≤ new.toNat), flagZ := decide (new = 0), pc := s.pc + BitVec.ofNat 16 i.length } ∧
        new.toNat = 2 * old.toNat % 256) ∧
    (i.mnemonic = .lsr → i.row ∈ [(.acc, 0x4A, 1), (.zp, 0x46, 2), (.zpx, 0x56, 2), (.abs, 0x4E, 3), (.abx, 0x5E, 3)] ∧
      ∃ old new t, exec i s = .next t ∧ HandleRewritten (resolve i.mode s) s t old new ∧
        t = { s with a := t.a, mem := t.mem, flagC := old.getLsbD 0, flagN := decide (128 ≤ new.toNat), flagZ := decide (new = 0), pc := s.pc + BitVec.ofNat 16 i.length } ∧
        new.toNat = old.toNat / 2)

/-- R152, R153, R156, R157. -/
def Obligations.RotatesGoThroughCarry : Prop :=
  ∀ (i : Instr) (s : State),
    (i.mnemonic = .rol → i.row ∈ [(.acc, 0x2A, 1), (.zp, 0x26, 2), (.zpx, 0x36, 2), (.abs, 0x2E, 3), (.abx, 0x3E, 3)] ∧
      ∃ old new t, exec i s = .next t ∧ HandleRewritten (resolve i.mode s) s t old new ∧
        t = { s with a := t.a, mem := t.mem, flagC := old.getLsbD 7, flagN := decide (128 ≤ new.toNat), flagZ := decide (new = 0), pc := s.pc + BitVec.ofNat 16 i.length } ∧
        new.toNat = (2 * old.toNat + s.flagC.toNat) % 256) ∧
    (i.mnemonic = .ror → i.row ∈ [(.acc, 0x6A, 1), (.zp, 0x66, 2), (.zpx, 0x76, 2), (.abs, 0x6E, 3), (.abx, 0x7E, 3)] ∧
      ∃ old new t, exec i s = .next t ∧ HandleRewritten (resolve i.mode s) s t old new ∧
        t = { s with a := t.a, mem := t.mem, flagC := old.getLsbD 0, flagN := decide (128 ≤ new.toNat), flagZ := decide (new = 0), pc := s.pc + BitVec.ofNat 16 i.length } ∧
        new.toNat = 128 * s.flagC.toNat + old.toNat / 2)

/-- R158, R159. -/
def Obligations.IncDecRewriteOneCell : Prop :=
  ∀ (i : Instr) (s : State),
    (i.mnemonic = .inc → i.row ∈ [(.zp, 0xE6, 2), (.zpx, 0xF6, 2), (.abs, 0xEE, 3), (.abx, 0xFE, 3)] ∧
      ∃ ea new t, resolve i.mode s = .mem ea ∧ exec i s = .next t ∧
        new.toNat = ((s.mem.read ea).toNat + 1) % 256 ∧ (∀ b, t.mem.read b = if b = ea then new else s.mem.read b) ∧
        t = { s with mem := t.mem, flagN := decide (128 ≤ new.toNat), flagZ := decide (new = 0), pc := s.pc + BitVec.ofNat 16 i.length }) ∧
    (i.mnemonic = .dec → i.row ∈ [(.zp, 0xC6, 2), (.zpx, 0xD6, 2), (.abs, 0xCE, 3), (.abx, 0xDE, 3)] ∧
      ∃ ea new t, resolve i.mode s = .mem ea ∧ exec i s = .next t ∧
        new.toNat = ((s.mem.read ea).toNat + 255) % 256 ∧ (∀ b, t.mem.read b = if b = ea then new else s.mem.read b) ∧
        t = { s with mem := t.mem, flagN := decide (128 ≤ new.toNat), flagZ := decide (new = 0), pc := s.pc + BitVec.ofNat 16 i.length })

/-- R160 to R163. -/
def Obligations.IndexIncDecWrap : Prop :=
  ∀ s : State,
    (∃ v : Byte, v.toNat = (s.x.toNat + 1) % 256 ∧ encode .inx = [0xE8] ∧
      exec .inx s = .next { s with x := v, flagN := decide (128 ≤ v.toNat), flagZ := decide (v = 0), pc := s.pc + 1 }) ∧
    (∃ v : Byte, v.toNat = (s.y.toNat + 1) % 256 ∧ encode .iny = [0xC8] ∧
      exec .iny s = .next { s with y := v, flagN := decide (128 ≤ v.toNat), flagZ := decide (v = 0), pc := s.pc + 1 }) ∧
    (∃ v : Byte, v.toNat = (s.x.toNat + 255) % 256 ∧ encode .dex = [0xCA] ∧
      exec .dex s = .next { s with x := v, flagN := decide (128 ≤ v.toNat), flagZ := decide (v = 0), pc := s.pc + 1 }) ∧
    (∃ v : Byte, v.toNat = (s.y.toNat + 255) % 256 ∧ encode .dey = [0x88] ∧
      exec .dey s = .next { s with y := v, flagN := decide (128 ≤ v.toNat), flagZ := decide (v = 0), pc := s.pc + 1 })

/-- R175 to R179. -/
def Obligations.TransfersCopyAndSetNZ : Prop :=
  ∀ s : State,
    (encode .tax = [0xAA] ∧
      exec .tax s = .next { s with x := s.a, flagN := decide (128 ≤ s.a.toNat), flagZ := decide (s.a = 0), pc := s.pc + 1 }) ∧
    (encode .tay = [0xA8] ∧
      exec .tay s = .next { s with y := s.a, flagN := decide (128 ≤ s.a.toNat), flagZ := decide (s.a = 0), pc := s.pc + 1 }) ∧
    (encode .txa = [0x8A] ∧
      exec .txa s = .next { s with a := s.x, flagN := decide (128 ≤ s.x.toNat), flagZ := decide (s.x = 0), pc := s.pc + 1 }) ∧
    (encode .tya = [0x98] ∧
      exec .tya s = .next { s with a := s.y, flagN := decide (128 ≤ s.y.toNat), flagZ := decide (s.y = 0), pc := s.pc + 1 }) ∧
    (encode .tsx = [0xBA] ∧
      exec .tsx s = .next { s with x := s.sp, flagN := decide (128 ≤ s.sp.toNat), flagZ := decide (s.sp = 0), pc := s.pc + 1 })

/-- TXS (decision D16), for every value of the parameters. -/
def Obligations.TxsFollowsItsParameter : Prop :=
  ∀ (c : Config) (s : State), encode .txs = [0x9A] ∧
    execWith c .txs s = .next { s with
      sp := s.x
      flagN := if c.txsSetsNz then decide (128 ≤ s.x.toNat) else s.flagN
      flagZ := if c.txsSetsNz then decide (s.x = 0) else s.flagZ
      pc := s.pc + 1 } ∧
    exec .txs s = .next { s with sp := s.x, flagN := decide (128 ≤ s.x.toNat), flagZ := decide (s.x = 0), pc := s.pc + 1 }

/-- PHA and PLA (decision D10), with their frame. -/
def Obligations.AccumulatorPushAndPull : Prop :=
  ∀ s : State, encode .pha = [0x48] ∧ encode .pla = [0x68] ∧
    (∃ t, exec .pha s = .next t ∧ t = { s with sp := s.sp - 1, pc := s.pc + 1, mem := t.mem } ∧
      ∀ b : Addr, t.mem.read b = if b.toNat = 256 + s.sp.toNat then s.a else s.mem.read b) ∧
    (∃ (v : Byte) (cell : Addr), cell.toNat = 256 + (s.sp.toNat + 1) % 256 ∧ v = s.mem.read cell ∧
      exec .pla s = .next { s with a := v, sp := s.sp + 1, flagN := decide (128 ≤ v.toNat), flagZ := decide (v = 0), pc := s.pc + 1 })

/-- R29, R183: the status byte. -/
def Obligations.StatusPush : Prop :=
  ∀ s : State, encode .php = [0x08] ∧
    ∃ t p, exec .php s = .next t ∧ t = { s with sp := s.sp - 1, pc := s.pc + 1, mem := t.mem } ∧ StatusByteOf s p ∧
      ∀ b : Addr, t.mem.read b = if b.toNat = 256 + s.sp.toNat then p else s.mem.read b

/-- PLP (decision D11). -/
def Obligations.StatusPull : Prop :=
  ∀ s : State, encode .plp = [0x28] ∧
    ∃ (p : Byte) (cell : Addr), cell.toNat = 256 + (s.sp.toNat + 1) % 256 ∧ p = s.mem.read cell ∧
      exec .plp s = .next { s with
        sp := s.sp + 1, flagN := p.getLsbD 7, flagV := p.getLsbD 6, flagI := p.getLsbD 2, flagZ := p.getLsbD 1
        flagC := p.getLsbD 0, pc := s.pc + 1 }

/-- The branches (decision D8 for all but BEQ). -/
def Obligations.BranchesFollowTheirFlag : Prop :=
  ∀ (d : Byte) (s : State),
    (encode (.bpl d) = [0x10, d] ∧ BranchesWhen (.bpl d) d (s.flagN = false) s) ∧
    (encode (.bmi d) = [0x30, d] ∧ BranchesWhen (.bmi d) d (s.flagN = true) s) ∧
    (encode (.bvc d) = [0x50, d] ∧ BranchesWhen (.bvc d) d (s.flagV = false) s) ∧
    (encode (.bvs d) = [0x70, d] ∧ BranchesWhen (.bvs d) d (s.flagV = true) s) ∧
    (encode (.bcc d) = [0x90, d] ∧ BranchesWhen (.bcc d) d (s.flagC = false) s) ∧
    (encode (.bcs d) = [0xB0, d] ∧ BranchesWhen (.bcs d) d (s.flagC = true) s) ∧
    (encode (.bne d) = [0xD0, d] ∧ BranchesWhen (.bne d) d (s.flagZ = false) s) ∧
    (encode (.beq d) = [0xF0, d] ∧ BranchesWhen (.beq d) d (s.flagZ = true) s)

/-- R199. -/
def Obligations.BeqBranchesOnZero : Prop :=
  ∀ (d : Byte) (s : State), encode (.beq d) = [0xF0, d] ∧ BranchesWhen (.beq d) d (s.flagZ = true) s ∧
    (s.flagZ = true → exec (.beq 0xFE) s = .next s)

/-- R200. -/
def Obligations.JmpWritesPc : Prop :=
  ∀ (b1 b2 : Byte) (s : State),
    encode (.jmpAbs (ofHiLo b2 b1)) = [0x4C, b1, b2] ∧ encode (.jmpInd (ofHiLo b2 b1)) = [0x6C, b1, b2] ∧
    exec (.jmpAbs (ofHiLo b2 b1)) s = .next { s with pc := ofHiLo b2 b1 } ∧
    exec (.jmpInd (ofHiLo b2 b1)) s =
      .next { s with pc := ofHiLo (s.mem.read (ofHiLo b2 (b1 + 1))) (s.mem.read (ofHiLo b2 b1)) }

/-- R201, with its frame. -/
def Obligations.JsrPushesItsLastByte : Prop :=
  ∀ (b1 b2 : Byte) (s : State), encode (.jsr (ofHiLo b2 b1)) = [0x20, b1, b2] ∧
    ∃ t, exec (.jsr (ofHiLo b2 b1)) s = .next t ∧ t = { s with sp := s.sp - 2, pc := ofHiLo b2 b1, mem := t.mem } ∧
      ∀ b : Addr, t.mem.read b =
        if b = 0x0100 + s.sp.setWidth 16 then hiByte (s.pc + 2)
        else if b = 0x0100 + (s.sp - 1).setWidth 16 then loByte (s.pc + 2)
        else s.mem.read b

/-- R202. -/
def Obligations.RtsPopsAndAddsOne : Prop :=
  ∀ s : State, encode .rts = [0x60] ∧
    exec .rts s = .next { s with
      sp := s.sp + 2
      pc := ofHiLo (s.mem.read (0x0100 + (s.sp + 2).setWidth 16)) (s.mem.read (0x0100 + (s.sp + 1).setWidth 16)) + 1 }

/-- BRK (decision D12), the one vectored transfer, for every value of the parameters but the bus, which is RAM. -/
def Obligations.BrkEntersThroughVector : Prop :=
  ∀ (c : Config) (s : State), encode .brk = [0x00] ∧
    (∃ t, execWith { c with bus := ramBus } .brk s = .next t ∧ EntersBreak c.brkVector s t) ∧ (∃ t, exec .brk s = .next t ∧ EntersBreak 0xFFFE s t)

/-- RTI (decision D13). -/
def Obligations.RtiRestoresStatusAndPc : Prop :=
  ∀ s : State, encode .rti = [0x40] ∧
    ∃ p : Byte, p = s.mem.read (0x0100 + (s.sp + 1).setWidth 16) ∧
      exec .rti s = .next { s with
        flagN := p.getLsbD 7, flagV := p.getLsbD 6, flagI := p.getLsbD 2, flagZ := p.getLsbD 1, flagC := p.getLsbD 0
        sp := s.sp + 3
        pc := ofHiLo (s.mem.read (0x0100 + (s.sp + 3).setWidth 16)) (s.mem.read (0x0100 + (s.sp + 2).setWidth 16)) }

/-- The flag instructions and NOP (decisions D15 and D14). -/
def Obligations.FlagInstructionsWriteOneFlag : Prop :=
  ∀ s : State,
    (encode .clc = [0x18] ∧ exec .clc s = .next { s with flagC := false, pc := s.pc + 1 }) ∧
    (encode .sec = [0x38] ∧ exec .sec s = .next { s with flagC := true, pc := s.pc + 1 }) ∧
    (encode .cli = [0x58] ∧ exec .cli s = .next { s with flagI := false, pc := s.pc + 1 }) ∧
    (encode .sei = [0x78] ∧ exec .sei s = .next { s with flagI := true, pc := s.pc + 1 }) ∧
    (encode .clv = [0xB8] ∧ exec .clv s = .next { s with flagV := false, pc := s.pc + 1 }) ∧
    (encode .cld = [0xD8] ∧ exec .cld s = .next { s with flagD := false, pc := s.pc + 1 }) ∧
    (encode .sed = [0xF8] ∧ exec .sed s = .next { s with flagD := true, pc := s.pc + 1 }) ∧
    (encode .nop = [0xEA] ∧ exec .nop s = .next { s with pc := s.pc + 1 })

/-- R170, R171. -/
def Obligations.BytePushAndPop : Prop :=
  ∀ (v : Byte) (s : State),
    (∃ t, s.push8 v = t ∧ t = { s with sp := t.sp, mem := t.mem } ∧ t.sp.toNat = (s.sp.toNat + 255) % 256 ∧
      ∀ b : Addr, t.mem.read b = if b.toNat = 256 + s.sp.toNat then v else s.mem.read b) ∧
    (∃ (t : State) (cell : Addr), s.pop8 = t ∧ t = { s with sp := t.sp } ∧ t.sp.toNat = (s.sp.toNat + 1) % 256 ∧
      cell.toNat = 256 + t.sp.toNat ∧ s.pop8Value = s.mem.read cell)

/-- R172, R173. -/
def Obligations.PopSixteenUndoesPushSixteen : Prop :=
  ∀ (v : Addr) (s : State),
    (∃ t, s.push16 v = t ∧ t = { s with sp := s.sp - 2, mem := t.mem } ∧
      t.mem.read (0x0100 + s.sp.setWidth 16) = hiByte v ∧ t.mem.read (0x0100 + (s.sp - 1).setWidth 16) = loByte v ∧
      ∀ b : Addr, b ≠ 0x0100 + s.sp.setWidth 16 → b ≠ 0x0100 + (s.sp - 1).setWidth 16 → t.mem.read b = s.mem.read b) ∧
    s.pop16Value =
      ofHiLo (s.mem.read (0x0100 + (s.sp + 2).setWidth 16)) (s.mem.read (0x0100 + (s.sp + 1).setWidth 16)) ∧
    s.pop16 = { s with sp := s.sp + 2 } ∧
    (s.push16 v).pop16Value = v ∧ (s.push16 v).pop16 = { s with mem := (s.push16 v).mem }

/-- The source's LIFO property, from any stack pointer, by induction over the list. -/
def Obligations.StackIsLastInFirstOut : Prop :=
  ∀ (bytes : List Byte) (s : State), bytes.length ≤ 256 →
    pulledBytes bytes.length (pushedAll bytes s) = bytes.reverse ∧
    (pulledAll bytes.length (pushedAll bytes s)).sp = s.sp ∧
    (bytes.length = 256 → (pushedAll bytes s).sp = s.sp)

/-- The source's JSR/RTS property. -/
def Obligations.JsrThenRtsReturns : Prop :=
  ∀ (w : Addr) (s : State), ∃ t u, exec (.jsr w) s = .next t ∧ exec .rts t = .next u ∧
    u = { s with pc := s.pc + 3, mem := t.mem }

/-- RTI reverses BRK (decisions D12 and D13). -/
def Obligations.BrkThenRtiRestores : Prop :=
  ∀ s : State, ∃ t u, exec .brk s = .next t ∧ exec .rti t = .next u ∧ u = { s with pc := s.pc + 2, mem := t.mem }

/-- PHP followed by PLP, with the flags overwritten in between. -/
def Obligations.PhpThenPlpRestores : Prop :=
  ∀ (s : State) (c z i d v n : Bool), ∃ t u, exec .php s = .next t ∧
    exec .plp { t with flagC := c, flagZ := z, flagI := i, flagD := d, flagV := v, flagN := n } = .next u ∧
    u = { s with flagD := d, pc := s.pc + 2, mem := t.mem }

/-- The flag table, as a frame over all instructions. -/
def Obligations.FlagsWrittenOnlyAsListed : Prop :=
  ∀ (i : Instr) (s t : State), exec i s = .next t →
    (t.flagC ≠ s.flagC → i.mnemonic ∈ [.adc, .sbc, .cmp, .cpx, .cpy, .asl, .lsr, .rol, .ror, .clc, .sec, .plp, .rti]) ∧
    (t.flagZ ≠ s.flagZ → i.mnemonic ∈ nzWriters) ∧
    (t.flagN ≠ s.flagN → i.mnemonic ∈ nzWriters) ∧
    (t.flagV ≠ s.flagV → i.mnemonic ∈ [.adc, .sbc, .bit, .clv, .plp, .rti]) ∧
    (t.flagI ≠ s.flagI → i.mnemonic ∈ [.sei, .cli, .brk, .plp, .rti]) ∧
    (t.flagD ≠ s.flagD → i.mnemonic ∈ [.sed, .cld])

/-- The register table, as a frame over all instructions. -/
def Obligations.RegistersWrittenOnlyAsListed : Prop :=
  ∀ (i : Instr) (s t : State), exec i s = .next t →
    (t.a ≠ s.a → i.mnemonic ∈ [.lda, .txa, .tya, .pla, .and, .ora, .eor, .adc, .sbc] ∨
      (i.mnemonic ∈ [.asl, .lsr, .rol, .ror] ∧ i.mode = .acc)) ∧
    (t.x ≠ s.x → i.mnemonic ∈ [.ldx, .tax, .tsx, .inx, .dex]) ∧
    (t.y ≠ s.y → i.mnemonic ∈ [.ldy, .tay, .iny, .dey]) ∧
    (t.sp ≠ s.sp → i.mnemonic ∈ [.txs, .pha, .php, .pla, .plp, .jsr, .rts, .brk, .rti])

/-- The memory frame of all instructions. -/
def Obligations.OnlyStoredBytesChange : Prop :=
  ∀ (i : Instr) (s t : State), exec i s = .next t → ∀ b : Addr, b ∉ storedAddresses i s → t.mem.read b = s.mem.read b

/-- D is read by no instruction: a noninterference statement over the whole step. -/
def Obligations.DecimalFlagHasNoEffect : Prop :=
  ∀ (s t : State) (d : Bool), step s = .next t →
    ∃ u, step { s with flagD := d } = .next u ∧ { u with flagD := t.flagD } = t

/-- I masks nothing (decision D18): the same instruction with another I does the same, but for I itself and bit 2 of the
status byte that PHP and BRK push. -/
def Obligations.InterruptDisableMasksNothing : Prop :=
  ∀ (s t : State) (b : Bool) (i : Instr), exec i s = .next t → ∃ u, exec i { s with flagI := b } = .next u ∧
    { u with flagI := t.flagI, mem := t.mem } = t ∧
    (i.mnemonic ≠ .php → i.mnemonic ≠ .brk → u.mem = t.mem) ∧
    (i.mnemonic = .php → DiffersInStatusBit2 (stackAddr s.sp) t u) ∧
    (i.mnemonic = .brk → DiffersInStatusBit2 (stackAddr (s.sp - 2)) t u)

/-- The access sequence (decision D4) and the machine agree about the bus, under all parameters; and on the default RAM. -/
def Obligations.BusTraceExplainsMemory : Prop :=
  (∀ (c : Config) (s t : State), stepWith c s = .next t →
    replay (busAccesses s c) s.mem c.bus = t.mem ∧ readsAgree (busAccesses s c) s.mem c.bus = true ∧
    ∃ op b1 b2 rest, busAccesses s c = .read s.pc op :: .read (s.pc + 1) b1 :: .read (s.pc + 2) b2 :: rest) ∧
  ∀ s t : State, step s = .next t →
    replay (busAccesses s) s.mem = t.mem ∧ readsAgree (busAccesses s) s.mem = true ∧
    (busAccesses s).take 3 = [.read s.pc (s.mem.read s.pc), .read (s.pc + 1) (s.mem.read (s.pc + 1)),
      .read (s.pc + 2) (s.mem.read (s.pc + 2))]

/-- The access sequence is complete (decision D4): noninterference of the cells outside it. -/
def Obligations.OnlyAccessedCellsMatter : Prop :=
  ∀ (s t : State) (m : Memory), step s = .next t → (∀ a v, .read a v ∈ busAccesses s → m.read a = s.mem.read a) →
    ∃ u, step { s with mem := m } = .next u ∧ { u with mem := t.mem } = t ∧
      (∀ b v, .write b v ∈ busAccesses s → u.mem.read b = t.mem.read b) ∧
      ∀ b, (∀ v, .write b v ∉ busAccesses s) → u.mem.read b = m.read b

/-- The canonical form is canonical; it is the model's representation of `mem : u16 -> u8` (log entry 1). -/
def Obligations.EqualBusesAreEqualLists : Prop :=
  ∀ m m' : Memory, m.wf = true → m'.wf = true → (∀ a : Addr, m.read a = m'.read a) → m = m'

/-- RECOGNIZED_SET as a parameter (decision D2). That a byte with no row halts even inside the set is the model's choice
(log entry 5), and so is the halt as a next state (log entry 2). -/
def Obligations.RecognizedSetDecidesHalting : Prop :=
  (∀ (c : Config) (s : State), s.halted = false →
    (c.recognizedSet.contains (fetch s c.bus).op = false ∨ (fetch s c.bus).op ∈ unrecognizedBytes →
      stepWith c s = .next { afterFetch s c.bus with
        halted := true, faultRecord := some { pc := s.pc, opcode := (fetch s c.bus).op } }) ∧
    ∀ i, c.recognizedSet.contains (fetch s c.bus).op = true →
      decodeBytes (fetch s c.bus).op (fetch s c.bus).arg1 (fetch s c.bus).arg2 = .recognized i →
      stepWith c s = execWith c i (afterFetch s c.bus)) ∧
  ∀ s : State, afterFetch s = s ∧
    fetch s = { op := s.mem.read s.pc, arg1 := s.mem.read (s.pc + 1), arg2 := s.mem.read (s.pc + 2) }

/-- Instruction-fetch coherence, self-modifying code and the operand latch, for every instruction: the next fetch reads
what the step stored, by a store, a read-modify-write or a push. -/
def Obligations.StepSeesTheLatestWrite : Prop :=
  ∀ (s : State) (i : Instr), s.halted = false →
    decodeBytes (s.mem.read s.pc) (s.mem.read (s.pc + 1)) (s.mem.read (s.pc + 2)) = .recognized i →
    ∃ t, step s = .next t ∧ (i.mnemonic ∉ pcWriters → t.pc = s.pc + BitVec.ofNat 16 i.length) ∧
      (fetch t).op = latest (storedBytes i s) s.mem t.pc ∧
      (fetch t).arg1 = latest (storedBytes i s) s.mem (t.pc + 1) ∧
      (fetch t).arg2 = latest (storedBytes i s) s.mem (t.pc + 2)

/-- A halted core through any host session without a reset (decisions D6 and D7). -/
def Obligations.OnlyResetLeavesHalted : Prop :=
  ∀ (hs : List HostAction) (s : State), s.halted = true → HostAction.reset ∉ hs →
    ∃ t, actAll hs s = .next t ∧ t = { s with mem := t.mem }

/-- The core is a function of its registers and of its accesses: two buses that give a step the same access sequence give
it the same registers, flags and halt (the parameter BUS, decisions D3 and D4). -/
def Obligations.CoreSeesOnlyItsAccesses : Prop :=
  ∀ (c : Config) (bus : Bus) (s t : State) (m : Memory), stepWith c s = .next t →
    busAccesses { s with mem := m } { c with bus := bus } = busAccesses s c →
    ∃ u, stepWith { c with bus := bus } { s with mem := m } = .next u ∧ { u with mem := t.mem } = t
end

