-- ==== Sys2Proof/Laws/Bytes.lean ====
section
/-! SUPPORT. The laws of the byte-order helpers and of stack addresses. -/

namespace Sys2Proof.Machine

theorem ofHiLo_toNat (hi lo : Byte) : (ofHiLo hi lo).toNat = hi.toNat * 256 + lo.toNat := by
  have h2 := lo.isLt
  have h : (ofHiLo hi lo).toNat = hi.toNat <<< 8 ||| lo.toNat := BitVec.toNat_append hi lo
  rw [h, ← Nat.shiftLeft_add_eq_or_of_lt h2, Nat.shiftLeft_eq]

theorem hiByte_toNat (w : Addr) : (hiByte w).toNat = w.toNat / 256 := by
  have := w.isLt
  simp [hiByte, BitVec.extractLsb'_toNat, Nat.shiftRight_eq_div_pow]
  omega

theorem loByte_toNat (w : Addr) : (loByte w).toNat = w.toNat % 256 := by
  simp [loByte, BitVec.extractLsb'_toNat]

@[simp] theorem hiByte_ofHiLo (hi lo : Byte) : hiByte (ofHiLo hi lo) = hi := by
  apply BitVec.eq_of_toNat_eq
  have := lo.isLt
  rw [hiByte_toNat, ofHiLo_toNat]
  omega

@[simp] theorem loByte_ofHiLo (hi lo : Byte) : loByte (ofHiLo hi lo) = lo := by
  apply BitVec.eq_of_toNat_eq
  have := lo.isLt
  rw [loByte_toNat, ofHiLo_toNat]
  omega

@[simp] theorem ofHiLo_hiByte_loByte (w : Addr) : ofHiLo (hiByte w) (loByte w) = w := by
  apply BitVec.eq_of_toNat_eq
  rw [ofHiLo_toNat, hiByte_toNat, loByte_toNat]
  omega

theorem zext16_toNat (b : Byte) : (zext16 b).toNat = b.toNat := by
  have := b.isLt
  simp only [zext16, BitVec.toNat_setWidth]
  omega

/-- R23: the stack lies in page 1. -/
theorem stackAddr_toNat (sp : Byte) : (stackAddr sp).toNat = 256 + sp.toNat := by
  have := sp.isLt
  simp [stackAddr, BitVec.toNat_add, zext16_toNat]
  omega

/-- Different values of `SP` address different stack cells. -/
@[simp] theorem stackAddr_inj (p q : Byte) : stackAddr p = stackAddr q ↔ p = q := by
  refine ⟨fun h => BitVec.eq_of_toNat_eq ?_, fun h => by rw [h]⟩
  have := congrArg BitVec.toNat h
  simp only [stackAddr_toNat] at this
  omega

/-! The arithmetic of `SP` over the one to three bytes an instruction pushes or pulls, in simp's normal form. -/

@[simp] theorem sp_sub_one_sub_one (p : Byte) : p - 1#8 - 1#8 = p - 2#8 := by revert p; decide
@[simp] theorem sp_sub_two_sub_one (p : Byte) : p - 2#8 - 1#8 = p - 3#8 := by revert p; decide
@[simp] theorem sp_add_one_add_one (p : Byte) : p + 1#8 + 1#8 = p + 2#8 := by revert p; decide
@[simp] theorem sp_add_two_add_one (p : Byte) : p + 2#8 + 1#8 = p + 3#8 := by revert p; decide
@[simp] theorem sp_sub_two_add_one (p : Byte) : p - 2#8 + 1#8 = p - 1#8 := by revert p; decide
@[simp] theorem sp_sub_three_add_one (p : Byte) : p - 3#8 + 1#8 = p - 2#8 := by revert p; decide
@[simp] theorem sp_sub_three_add_two (p : Byte) : p - 3#8 + 2#8 = p - 1#8 := by revert p; decide
@[simp] theorem sp_ne_sub_one (p : Byte) : ¬ p = p - 1#8 := by revert p; decide
@[simp] theorem sp_ne_sub_two (p : Byte) : ¬ p = p - 2#8 := by revert p; decide
@[simp] theorem sp_sub_one_ne (p : Byte) : ¬ p - 1#8 = p := by revert p; decide
@[simp] theorem sp_sub_two_ne (p : Byte) : ¬ p - 2#8 = p := by revert p; decide
@[simp] theorem sp_sub_one_ne_sub_two (p : Byte) : ¬ p - 1#8 = p - 2#8 := by revert p; decide
@[simp] theorem sp_sub_two_ne_sub_one (p : Byte) : ¬ p - 2#8 = p - 1#8 := by revert p; decide

theorem zeroOf_eq (r : Byte) : zeroOf r = decide (r = 0) := by
  simp [zeroOf, beq_eq_decide]

theorem signOf_eq_bit7 (r : Byte) : signOf r = r.getLsbD 7 := by
  revert r; decide

end Sys2Proof.Machine
end

