-- ==== Sys2Proof/Laws/Decode.lean ====
section
/-! SUPPORT. The decoder as a table: a byte is recognized exactly when it has a row. -/

namespace Sys2Proof

/-- Whether a byte has a row does not depend on the bytes after it (R72). -/
theorem decodeTable_isSome_args (op b1 b2 c1 c2 : Byte) :
    (decodeTable op b1 b2).isSome = (decodeTable op c1 c2).isSome := by
  unfold decodeTable
  dsimp only
  split <;>
    first
    | rfl
    | simp only [decodeRow0, decodeRow1, decodeRow2, decodeRow3, decodeRow4, decodeRow5, decodeRow6, decodeRow7,
        decodeRow8, decodeRow9, decodeRowA, decodeRowB, decodeRowC, decodeRowD, decodeRowE, decodeRowF]
      split <;> rfl

/-- The bytes with a row in the opcode map are those of `OFFICIAL_151`. -/
theorem decodeTable_isSome (op b1 b2 : Byte) : (decodeTable op b1 b2).isSome = officialSet.contains op := by
  rw [decodeTable_isSome_args op b1 b2 0 0]
  revert op
  decide +kernel

/-- R76: the default decoder reads the table, and a byte with no row is unrecognized. -/
theorem decodeBytes_eq (op b1 b2 : Byte) : decodeBytes op b1 b2 =
    match decodeTable op b1 b2 with
    | some i => .recognized i
    | none => .unrecognized op := by
  have h := decodeTable_isSome op b1 b2
  unfold decodeBytes decodeIn
  cases hs : decodeTable op b1 b2 <;> simp_all

/-- The opcode byte of what the table holds is the byte it was looked up by. -/
theorem opcode_of_decodeTable {op b1 b2 : Byte} {i : Instr} (h : decodeTable op b1 b2 = some i) : i.opcode = op := by
  unfold decodeTable at h
  dsimp only at h
  split at h <;>
    simp only [decodeRow0, decodeRow1, decodeRow2, decodeRow3, decodeRow4, decodeRow5, decodeRow6, decodeRow7,
      decodeRow8, decodeRow9, decodeRowA, decodeRowB, decodeRowC, decodeRowD, decodeRowE, decodeRowF, reduceCtorEq] at h <;>
    split at h <;> cases h <;> apply BitVec.eq_of_toNat_eq <;> simp only [Instr.opcode, BitVec.reduceToNat] <;> omega

/-- A recognized instruction is well-formed under the default parameters' set. -/
theorem opcode_of_decodeBytes {op b1 b2 : Byte} {i : Instr} (h : decodeBytes op b1 b2 = .recognized i) :
    i.opcode = op := by
  rw [decodeBytes_eq] at h
  cases hs : decodeTable op b1 b2 with
  | none => rw [hs] at h; cases h
  | some j => rw [hs] at h; cases h; exact opcode_of_decodeTable hs

end Sys2Proof
end

