-- ==== Sys2Proof/Laws/State.lean ====
section
/-! SUPPORT. One lemma per field of `State` and per named update, so that no later proof unfolds a record update. -/

namespace Sys2Proof.Machine

variable (s : State)

@[simp] theorem State.setA_a (v : Byte) : (s.setA v).a = v := rfl
@[simp] theorem State.setA_x (v : Byte) : (s.setA v).x = s.x := rfl
@[simp] theorem State.setA_y (v : Byte) : (s.setA v).y = s.y := rfl
@[simp] theorem State.setA_sp (v : Byte) : (s.setA v).sp = s.sp := rfl
@[simp] theorem State.setA_pc (v : Byte) : (s.setA v).pc = s.pc := rfl
@[simp] theorem State.setA_flagC (v : Byte) : (s.setA v).flagC = s.flagC := rfl
@[simp] theorem State.setA_flagZ (v : Byte) : (s.setA v).flagZ = s.flagZ := rfl
@[simp] theorem State.setA_flagI (v : Byte) : (s.setA v).flagI = s.flagI := rfl
@[simp] theorem State.setA_flagD (v : Byte) : (s.setA v).flagD = s.flagD := rfl
@[simp] theorem State.setA_flagV (v : Byte) : (s.setA v).flagV = s.flagV := rfl
@[simp] theorem State.setA_flagN (v : Byte) : (s.setA v).flagN = s.flagN := rfl
@[simp] theorem State.setA_halted (v : Byte) : (s.setA v).halted = s.halted := rfl
@[simp] theorem State.setA_faultRecord (v : Byte) : (s.setA v).faultRecord = s.faultRecord := rfl
@[simp] theorem State.setA_mem (v : Byte) : (s.setA v).mem = s.mem := rfl

@[simp] theorem State.setX_a (v : Byte) : (s.setX v).a = s.a := rfl
@[simp] theorem State.setX_x (v : Byte) : (s.setX v).x = v := rfl
@[simp] theorem State.setX_y (v : Byte) : (s.setX v).y = s.y := rfl
@[simp] theorem State.setX_sp (v : Byte) : (s.setX v).sp = s.sp := rfl
@[simp] theorem State.setX_pc (v : Byte) : (s.setX v).pc = s.pc := rfl
@[simp] theorem State.setX_flagC (v : Byte) : (s.setX v).flagC = s.flagC := rfl
@[simp] theorem State.setX_flagZ (v : Byte) : (s.setX v).flagZ = s.flagZ := rfl
@[simp] theorem State.setX_flagI (v : Byte) : (s.setX v).flagI = s.flagI := rfl
@[simp] theorem State.setX_flagD (v : Byte) : (s.setX v).flagD = s.flagD := rfl
@[simp] theorem State.setX_flagV (v : Byte) : (s.setX v).flagV = s.flagV := rfl
@[simp] theorem State.setX_flagN (v : Byte) : (s.setX v).flagN = s.flagN := rfl
@[simp] theorem State.setX_halted (v : Byte) : (s.setX v).halted = s.halted := rfl
@[simp] theorem State.setX_faultRecord (v : Byte) : (s.setX v).faultRecord = s.faultRecord := rfl
@[simp] theorem State.setX_mem (v : Byte) : (s.setX v).mem = s.mem := rfl

@[simp] theorem State.setY_a (v : Byte) : (s.setY v).a = s.a := rfl
@[simp] theorem State.setY_x (v : Byte) : (s.setY v).x = s.x := rfl
@[simp] theorem State.setY_y (v : Byte) : (s.setY v).y = v := rfl
@[simp] theorem State.setY_sp (v : Byte) : (s.setY v).sp = s.sp := rfl
@[simp] theorem State.setY_pc (v : Byte) : (s.setY v).pc = s.pc := rfl
@[simp] theorem State.setY_flagC (v : Byte) : (s.setY v).flagC = s.flagC := rfl
@[simp] theorem State.setY_flagZ (v : Byte) : (s.setY v).flagZ = s.flagZ := rfl
@[simp] theorem State.setY_flagI (v : Byte) : (s.setY v).flagI = s.flagI := rfl
@[simp] theorem State.setY_flagD (v : Byte) : (s.setY v).flagD = s.flagD := rfl
@[simp] theorem State.setY_flagV (v : Byte) : (s.setY v).flagV = s.flagV := rfl
@[simp] theorem State.setY_flagN (v : Byte) : (s.setY v).flagN = s.flagN := rfl
@[simp] theorem State.setY_halted (v : Byte) : (s.setY v).halted = s.halted := rfl
@[simp] theorem State.setY_faultRecord (v : Byte) : (s.setY v).faultRecord = s.faultRecord := rfl
@[simp] theorem State.setY_mem (v : Byte) : (s.setY v).mem = s.mem := rfl

@[simp] theorem State.setSp_a (v : Byte) : (s.setSp v).a = s.a := rfl
@[simp] theorem State.setSp_x (v : Byte) : (s.setSp v).x = s.x := rfl
@[simp] theorem State.setSp_y (v : Byte) : (s.setSp v).y = s.y := rfl
@[simp] theorem State.setSp_sp (v : Byte) : (s.setSp v).sp = v := rfl
@[simp] theorem State.setSp_pc (v : Byte) : (s.setSp v).pc = s.pc := rfl
@[simp] theorem State.setSp_flagC (v : Byte) : (s.setSp v).flagC = s.flagC := rfl
@[simp] theorem State.setSp_flagZ (v : Byte) : (s.setSp v).flagZ = s.flagZ := rfl
@[simp] theorem State.setSp_flagI (v : Byte) : (s.setSp v).flagI = s.flagI := rfl
@[simp] theorem State.setSp_flagD (v : Byte) : (s.setSp v).flagD = s.flagD := rfl
@[simp] theorem State.setSp_flagV (v : Byte) : (s.setSp v).flagV = s.flagV := rfl
@[simp] theorem State.setSp_flagN (v : Byte) : (s.setSp v).flagN = s.flagN := rfl
@[simp] theorem State.setSp_halted (v : Byte) : (s.setSp v).halted = s.halted := rfl
@[simp] theorem State.setSp_faultRecord (v : Byte) : (s.setSp v).faultRecord = s.faultRecord := rfl
@[simp] theorem State.setSp_mem (v : Byte) : (s.setSp v).mem = s.mem := rfl

@[simp] theorem State.setPc_a (w : Addr) : (s.setPc w).a = s.a := rfl
@[simp] theorem State.setPc_x (w : Addr) : (s.setPc w).x = s.x := rfl
@[simp] theorem State.setPc_y (w : Addr) : (s.setPc w).y = s.y := rfl
@[simp] theorem State.setPc_sp (w : Addr) : (s.setPc w).sp = s.sp := rfl
@[simp] theorem State.setPc_pc (w : Addr) : (s.setPc w).pc = w := rfl
@[simp] theorem State.setPc_flagC (w : Addr) : (s.setPc w).flagC = s.flagC := rfl
@[simp] theorem State.setPc_flagZ (w : Addr) : (s.setPc w).flagZ = s.flagZ := rfl
@[simp] theorem State.setPc_flagI (w : Addr) : (s.setPc w).flagI = s.flagI := rfl
@[simp] theorem State.setPc_flagD (w : Addr) : (s.setPc w).flagD = s.flagD := rfl
@[simp] theorem State.setPc_flagV (w : Addr) : (s.setPc w).flagV = s.flagV := rfl
@[simp] theorem State.setPc_flagN (w : Addr) : (s.setPc w).flagN = s.flagN := rfl
@[simp] theorem State.setPc_halted (w : Addr) : (s.setPc w).halted = s.halted := rfl
@[simp] theorem State.setPc_faultRecord (w : Addr) : (s.setPc w).faultRecord = s.faultRecord := rfl
@[simp] theorem State.setPc_mem (w : Addr) : (s.setPc w).mem = s.mem := rfl

@[simp] theorem State.setC_a (b : Bool) : (s.setC b).a = s.a := rfl
@[simp] theorem State.setC_x (b : Bool) : (s.setC b).x = s.x := rfl
@[simp] theorem State.setC_y (b : Bool) : (s.setC b).y = s.y := rfl
@[simp] theorem State.setC_sp (b : Bool) : (s.setC b).sp = s.sp := rfl
@[simp] theorem State.setC_pc (b : Bool) : (s.setC b).pc = s.pc := rfl
@[simp] theorem State.setC_flagC (b : Bool) : (s.setC b).flagC = b := rfl
@[simp] theorem State.setC_flagZ (b : Bool) : (s.setC b).flagZ = s.flagZ := rfl
@[simp] theorem State.setC_flagI (b : Bool) : (s.setC b).flagI = s.flagI := rfl
@[simp] theorem State.setC_flagD (b : Bool) : (s.setC b).flagD = s.flagD := rfl
@[simp] theorem State.setC_flagV (b : Bool) : (s.setC b).flagV = s.flagV := rfl
@[simp] theorem State.setC_flagN (b : Bool) : (s.setC b).flagN = s.flagN := rfl
@[simp] theorem State.setC_halted (b : Bool) : (s.setC b).halted = s.halted := rfl
@[simp] theorem State.setC_faultRecord (b : Bool) : (s.setC b).faultRecord = s.faultRecord := rfl
@[simp] theorem State.setC_mem (b : Bool) : (s.setC b).mem = s.mem := rfl

@[simp] theorem State.setI_a (b : Bool) : (s.setI b).a = s.a := rfl
@[simp] theorem State.setI_x (b : Bool) : (s.setI b).x = s.x := rfl
@[simp] theorem State.setI_y (b : Bool) : (s.setI b).y = s.y := rfl
@[simp] theorem State.setI_sp (b : Bool) : (s.setI b).sp = s.sp := rfl
@[simp] theorem State.setI_pc (b : Bool) : (s.setI b).pc = s.pc := rfl
@[simp] theorem State.setI_flagC (b : Bool) : (s.setI b).flagC = s.flagC := rfl
@[simp] theorem State.setI_flagZ (b : Bool) : (s.setI b).flagZ = s.flagZ := rfl
@[simp] theorem State.setI_flagI (b : Bool) : (s.setI b).flagI = b := rfl
@[simp] theorem State.setI_flagD (b : Bool) : (s.setI b).flagD = s.flagD := rfl
@[simp] theorem State.setI_flagV (b : Bool) : (s.setI b).flagV = s.flagV := rfl
@[simp] theorem State.setI_flagN (b : Bool) : (s.setI b).flagN = s.flagN := rfl
@[simp] theorem State.setI_halted (b : Bool) : (s.setI b).halted = s.halted := rfl
@[simp] theorem State.setI_faultRecord (b : Bool) : (s.setI b).faultRecord = s.faultRecord := rfl
@[simp] theorem State.setI_mem (b : Bool) : (s.setI b).mem = s.mem := rfl

@[simp] theorem State.setD_a (b : Bool) : (s.setD b).a = s.a := rfl
@[simp] theorem State.setD_x (b : Bool) : (s.setD b).x = s.x := rfl
@[simp] theorem State.setD_y (b : Bool) : (s.setD b).y = s.y := rfl
@[simp] theorem State.setD_sp (b : Bool) : (s.setD b).sp = s.sp := rfl
@[simp] theorem State.setD_pc (b : Bool) : (s.setD b).pc = s.pc := rfl
@[simp] theorem State.setD_flagC (b : Bool) : (s.setD b).flagC = s.flagC := rfl
@[simp] theorem State.setD_flagZ (b : Bool) : (s.setD b).flagZ = s.flagZ := rfl
@[simp] theorem State.setD_flagI (b : Bool) : (s.setD b).flagI = s.flagI := rfl
@[simp] theorem State.setD_flagD (b : Bool) : (s.setD b).flagD = b := rfl
@[simp] theorem State.setD_flagV (b : Bool) : (s.setD b).flagV = s.flagV := rfl
@[simp] theorem State.setD_flagN (b : Bool) : (s.setD b).flagN = s.flagN := rfl
@[simp] theorem State.setD_halted (b : Bool) : (s.setD b).halted = s.halted := rfl
@[simp] theorem State.setD_faultRecord (b : Bool) : (s.setD b).faultRecord = s.faultRecord := rfl
@[simp] theorem State.setD_mem (b : Bool) : (s.setD b).mem = s.mem := rfl

@[simp] theorem State.setV_a (b : Bool) : (s.setV b).a = s.a := rfl
@[simp] theorem State.setV_x (b : Bool) : (s.setV b).x = s.x := rfl
@[simp] theorem State.setV_y (b : Bool) : (s.setV b).y = s.y := rfl
@[simp] theorem State.setV_sp (b : Bool) : (s.setV b).sp = s.sp := rfl
@[simp] theorem State.setV_pc (b : Bool) : (s.setV b).pc = s.pc := rfl
@[simp] theorem State.setV_flagC (b : Bool) : (s.setV b).flagC = s.flagC := rfl
@[simp] theorem State.setV_flagZ (b : Bool) : (s.setV b).flagZ = s.flagZ := rfl
@[simp] theorem State.setV_flagI (b : Bool) : (s.setV b).flagI = s.flagI := rfl
@[simp] theorem State.setV_flagD (b : Bool) : (s.setV b).flagD = s.flagD := rfl
@[simp] theorem State.setV_flagV (b : Bool) : (s.setV b).flagV = b := rfl
@[simp] theorem State.setV_flagN (b : Bool) : (s.setV b).flagN = s.flagN := rfl
@[simp] theorem State.setV_halted (b : Bool) : (s.setV b).halted = s.halted := rfl
@[simp] theorem State.setV_faultRecord (b : Bool) : (s.setV b).faultRecord = s.faultRecord := rfl
@[simp] theorem State.setV_mem (b : Bool) : (s.setV b).mem = s.mem := rfl

@[simp] theorem State.setNZ_a (r : Byte) : (s.setNZ r).a = s.a := rfl
@[simp] theorem State.setNZ_x (r : Byte) : (s.setNZ r).x = s.x := rfl
@[simp] theorem State.setNZ_y (r : Byte) : (s.setNZ r).y = s.y := rfl
@[simp] theorem State.setNZ_sp (r : Byte) : (s.setNZ r).sp = s.sp := rfl
@[simp] theorem State.setNZ_pc (r : Byte) : (s.setNZ r).pc = s.pc := rfl
@[simp] theorem State.setNZ_flagC (r : Byte) : (s.setNZ r).flagC = s.flagC := rfl
@[simp] theorem State.setNZ_flagZ (r : Byte) : (s.setNZ r).flagZ = zeroOf r := rfl
@[simp] theorem State.setNZ_flagI (r : Byte) : (s.setNZ r).flagI = s.flagI := rfl
@[simp] theorem State.setNZ_flagD (r : Byte) : (s.setNZ r).flagD = s.flagD := rfl
@[simp] theorem State.setNZ_flagV (r : Byte) : (s.setNZ r).flagV = s.flagV := rfl
@[simp] theorem State.setNZ_flagN (r : Byte) : (s.setNZ r).flagN = signOf r := rfl
@[simp] theorem State.setNZ_halted (r : Byte) : (s.setNZ r).halted = s.halted := rfl
@[simp] theorem State.setNZ_faultRecord (r : Byte) : (s.setNZ r).faultRecord = s.faultRecord := rfl
@[simp] theorem State.setNZ_mem (r : Byte) : (s.setNZ r).mem = s.mem := rfl

@[simp] theorem State.afterRead_a (addr : Addr) (b : Bus) : (s.afterRead addr b).a = s.a := rfl
@[simp] theorem State.afterRead_x (addr : Addr) (b : Bus) : (s.afterRead addr b).x = s.x := rfl
@[simp] theorem State.afterRead_y (addr : Addr) (b : Bus) : (s.afterRead addr b).y = s.y := rfl
@[simp] theorem State.afterRead_sp (addr : Addr) (b : Bus) : (s.afterRead addr b).sp = s.sp := rfl
@[simp] theorem State.afterRead_pc (addr : Addr) (b : Bus) : (s.afterRead addr b).pc = s.pc := rfl
@[simp] theorem State.afterRead_flagC (addr : Addr) (b : Bus) : (s.afterRead addr b).flagC = s.flagC := rfl
@[simp] theorem State.afterRead_flagZ (addr : Addr) (b : Bus) : (s.afterRead addr b).flagZ = s.flagZ := rfl
@[simp] theorem State.afterRead_flagI (addr : Addr) (b : Bus) : (s.afterRead addr b).flagI = s.flagI := rfl
@[simp] theorem State.afterRead_flagD (addr : Addr) (b : Bus) : (s.afterRead addr b).flagD = s.flagD := rfl
@[simp] theorem State.afterRead_flagV (addr : Addr) (b : Bus) : (s.afterRead addr b).flagV = s.flagV := rfl
@[simp] theorem State.afterRead_flagN (addr : Addr) (b : Bus) : (s.afterRead addr b).flagN = s.flagN := rfl
@[simp] theorem State.afterRead_halted (addr : Addr) (b : Bus) : (s.afterRead addr b).halted = s.halted := rfl
@[simp] theorem State.afterRead_faultRecord (addr : Addr) (b : Bus) : (s.afterRead addr b).faultRecord = s.faultRecord := rfl
@[simp] theorem State.afterRead_mem (addr : Addr) (b : Bus) : (s.afterRead addr b).mem = b.afterRead s.mem addr := rfl

@[simp] theorem State.writeByte_a (addr : Addr) (v : Byte) (b : Bus) : (s.writeByte addr v b).a = s.a := rfl
@[simp] theorem State.writeByte_x (addr : Addr) (v : Byte) (b : Bus) : (s.writeByte addr v b).x = s.x := rfl
@[simp] theorem State.writeByte_y (addr : Addr) (v : Byte) (b : Bus) : (s.writeByte addr v b).y = s.y := rfl
@[simp] theorem State.writeByte_sp (addr : Addr) (v : Byte) (b : Bus) : (s.writeByte addr v b).sp = s.sp := rfl
@[simp] theorem State.writeByte_pc (addr : Addr) (v : Byte) (b : Bus) : (s.writeByte addr v b).pc = s.pc := rfl
@[simp] theorem State.writeByte_flagC (addr : Addr) (v : Byte) (b : Bus) : (s.writeByte addr v b).flagC = s.flagC := rfl
@[simp] theorem State.writeByte_flagZ (addr : Addr) (v : Byte) (b : Bus) : (s.writeByte addr v b).flagZ = s.flagZ := rfl
@[simp] theorem State.writeByte_flagI (addr : Addr) (v : Byte) (b : Bus) : (s.writeByte addr v b).flagI = s.flagI := rfl
@[simp] theorem State.writeByte_flagD (addr : Addr) (v : Byte) (b : Bus) : (s.writeByte addr v b).flagD = s.flagD := rfl
@[simp] theorem State.writeByte_flagV (addr : Addr) (v : Byte) (b : Bus) : (s.writeByte addr v b).flagV = s.flagV := rfl
@[simp] theorem State.writeByte_flagN (addr : Addr) (v : Byte) (b : Bus) : (s.writeByte addr v b).flagN = s.flagN := rfl
@[simp] theorem State.writeByte_halted (addr : Addr) (v : Byte) (b : Bus) : (s.writeByte addr v b).halted = s.halted := rfl
@[simp] theorem State.writeByte_faultRecord (addr : Addr) (v : Byte) (b : Bus) : (s.writeByte addr v b).faultRecord = s.faultRecord := rfl
@[simp] theorem State.writeByte_mem (addr : Addr) (v : Byte) (b : Bus) : (s.writeByte addr v b).mem = b.write s.mem addr v := rfl

@[simp] theorem State.advance_a (len : Nat) : (s.advance len).a = s.a := rfl
@[simp] theorem State.advance_x (len : Nat) : (s.advance len).x = s.x := rfl
@[simp] theorem State.advance_y (len : Nat) : (s.advance len).y = s.y := rfl
@[simp] theorem State.advance_sp (len : Nat) : (s.advance len).sp = s.sp := rfl
@[simp] theorem State.advance_pc (len : Nat) : (s.advance len).pc = s.pc + BitVec.ofNat 16 len := rfl
@[simp] theorem State.advance_flagC (len : Nat) : (s.advance len).flagC = s.flagC := rfl
@[simp] theorem State.advance_flagZ (len : Nat) : (s.advance len).flagZ = s.flagZ := rfl
@[simp] theorem State.advance_flagI (len : Nat) : (s.advance len).flagI = s.flagI := rfl
@[simp] theorem State.advance_flagD (len : Nat) : (s.advance len).flagD = s.flagD := rfl
@[simp] theorem State.advance_flagV (len : Nat) : (s.advance len).flagV = s.flagV := rfl
@[simp] theorem State.advance_flagN (len : Nat) : (s.advance len).flagN = s.flagN := rfl
@[simp] theorem State.advance_halted (len : Nat) : (s.advance len).halted = s.halted := rfl
@[simp] theorem State.advance_faultRecord (len : Nat) : (s.advance len).faultRecord = s.faultRecord := rfl
@[simp] theorem State.advance_mem (len : Nat) : (s.advance len).mem = s.mem := rfl

@[simp] theorem State.push8_a (v : Byte) (b : Bus) : (s.push8 v b).a = s.a := rfl
@[simp] theorem State.push8_x (v : Byte) (b : Bus) : (s.push8 v b).x = s.x := rfl
@[simp] theorem State.push8_y (v : Byte) (b : Bus) : (s.push8 v b).y = s.y := rfl
@[simp] theorem State.push8_sp (v : Byte) (b : Bus) : (s.push8 v b).sp = s.sp - 1 := rfl
@[simp] theorem State.push8_pc (v : Byte) (b : Bus) : (s.push8 v b).pc = s.pc := rfl
@[simp] theorem State.push8_flagC (v : Byte) (b : Bus) : (s.push8 v b).flagC = s.flagC := rfl
@[simp] theorem State.push8_flagZ (v : Byte) (b : Bus) : (s.push8 v b).flagZ = s.flagZ := rfl
@[simp] theorem State.push8_flagI (v : Byte) (b : Bus) : (s.push8 v b).flagI = s.flagI := rfl
@[simp] theorem State.push8_flagD (v : Byte) (b : Bus) : (s.push8 v b).flagD = s.flagD := rfl
@[simp] theorem State.push8_flagV (v : Byte) (b : Bus) : (s.push8 v b).flagV = s.flagV := rfl
@[simp] theorem State.push8_flagN (v : Byte) (b : Bus) : (s.push8 v b).flagN = s.flagN := rfl
@[simp] theorem State.push8_halted (v : Byte) (b : Bus) : (s.push8 v b).halted = s.halted := rfl
@[simp] theorem State.push8_faultRecord (v : Byte) (b : Bus) : (s.push8 v b).faultRecord = s.faultRecord := rfl
@[simp] theorem State.push8_mem (v : Byte) (b : Bus) : (s.push8 v b).mem = b.write s.mem (stackAddr s.sp) v := rfl

@[simp] theorem State.pop8_a (b : Bus) : (s.pop8 b).a = s.a := rfl
@[simp] theorem State.pop8_x (b : Bus) : (s.pop8 b).x = s.x := rfl
@[simp] theorem State.pop8_y (b : Bus) : (s.pop8 b).y = s.y := rfl
@[simp] theorem State.pop8_sp (b : Bus) : (s.pop8 b).sp = s.sp + 1 := rfl
@[simp] theorem State.pop8_pc (b : Bus) : (s.pop8 b).pc = s.pc := rfl
@[simp] theorem State.pop8_flagC (b : Bus) : (s.pop8 b).flagC = s.flagC := rfl
@[simp] theorem State.pop8_flagZ (b : Bus) : (s.pop8 b).flagZ = s.flagZ := rfl
@[simp] theorem State.pop8_flagI (b : Bus) : (s.pop8 b).flagI = s.flagI := rfl
@[simp] theorem State.pop8_flagD (b : Bus) : (s.pop8 b).flagD = s.flagD := rfl
@[simp] theorem State.pop8_flagV (b : Bus) : (s.pop8 b).flagV = s.flagV := rfl
@[simp] theorem State.pop8_flagN (b : Bus) : (s.pop8 b).flagN = s.flagN := rfl
@[simp] theorem State.pop8_halted (b : Bus) : (s.pop8 b).halted = s.halted := rfl
@[simp] theorem State.pop8_faultRecord (b : Bus) : (s.pop8 b).faultRecord = s.faultRecord := rfl
@[simp] theorem State.pop8_mem (b : Bus) : (s.pop8 b).mem = b.afterRead s.mem (stackAddr (s.sp + 1)) := rfl

@[simp] theorem State.push16_a (w : Addr) (b : Bus) : (s.push16 w b).a = s.a := rfl
@[simp] theorem State.push16_x (w : Addr) (b : Bus) : (s.push16 w b).x = s.x := rfl
@[simp] theorem State.push16_y (w : Addr) (b : Bus) : (s.push16 w b).y = s.y := rfl
@[simp] theorem State.push16_sp (w : Addr) (b : Bus) : (s.push16 w b).sp = s.sp - 1 - 1 := rfl
@[simp] theorem State.push16_pc (w : Addr) (b : Bus) : (s.push16 w b).pc = s.pc := rfl
@[simp] theorem State.push16_flagC (w : Addr) (b : Bus) : (s.push16 w b).flagC = s.flagC := rfl
@[simp] theorem State.push16_flagZ (w : Addr) (b : Bus) : (s.push16 w b).flagZ = s.flagZ := rfl
@[simp] theorem State.push16_flagI (w : Addr) (b : Bus) : (s.push16 w b).flagI = s.flagI := rfl
@[simp] theorem State.push16_flagD (w : Addr) (b : Bus) : (s.push16 w b).flagD = s.flagD := rfl
@[simp] theorem State.push16_flagV (w : Addr) (b : Bus) : (s.push16 w b).flagV = s.flagV := rfl
@[simp] theorem State.push16_flagN (w : Addr) (b : Bus) : (s.push16 w b).flagN = s.flagN := rfl
@[simp] theorem State.push16_halted (w : Addr) (b : Bus) : (s.push16 w b).halted = s.halted := rfl
@[simp] theorem State.push16_faultRecord (w : Addr) (b : Bus) : (s.push16 w b).faultRecord = s.faultRecord := rfl
@[simp] theorem State.push16_mem (w : Addr) (b : Bus) : (s.push16 w b).mem =
    b.write (b.write s.mem (stackAddr s.sp) (hiByte w)) (stackAddr (s.sp - 1)) (loByte w) := rfl

@[simp] theorem State.pop16_a (b : Bus) : (s.pop16 b).a = s.a := rfl
@[simp] theorem State.pop16_x (b : Bus) : (s.pop16 b).x = s.x := rfl
@[simp] theorem State.pop16_y (b : Bus) : (s.pop16 b).y = s.y := rfl
@[simp] theorem State.pop16_sp (b : Bus) : (s.pop16 b).sp = s.sp + 1 + 1 := rfl
@[simp] theorem State.pop16_pc (b : Bus) : (s.pop16 b).pc = s.pc := rfl
@[simp] theorem State.pop16_flagC (b : Bus) : (s.pop16 b).flagC = s.flagC := rfl
@[simp] theorem State.pop16_flagZ (b : Bus) : (s.pop16 b).flagZ = s.flagZ := rfl
@[simp] theorem State.pop16_flagI (b : Bus) : (s.pop16 b).flagI = s.flagI := rfl
@[simp] theorem State.pop16_flagD (b : Bus) : (s.pop16 b).flagD = s.flagD := rfl
@[simp] theorem State.pop16_flagV (b : Bus) : (s.pop16 b).flagV = s.flagV := rfl
@[simp] theorem State.pop16_flagN (b : Bus) : (s.pop16 b).flagN = s.flagN := rfl
@[simp] theorem State.pop16_halted (b : Bus) : (s.pop16 b).halted = s.halted := rfl
@[simp] theorem State.pop16_faultRecord (b : Bus) : (s.pop16 b).faultRecord = s.faultRecord := rfl
@[simp] theorem State.pop16_mem (b : Bus) : (s.pop16 b).mem =
    b.afterRead (b.afterRead s.mem (stackAddr (s.sp + 1))) (stackAddr (s.sp + 1 + 1)) := rfl

@[simp] theorem unpackStatus_a (p : Byte) : (unpackStatus p s).a = s.a := rfl
@[simp] theorem unpackStatus_x (p : Byte) : (unpackStatus p s).x = s.x := rfl
@[simp] theorem unpackStatus_y (p : Byte) : (unpackStatus p s).y = s.y := rfl
@[simp] theorem unpackStatus_sp (p : Byte) : (unpackStatus p s).sp = s.sp := rfl
@[simp] theorem unpackStatus_pc (p : Byte) : (unpackStatus p s).pc = s.pc := rfl
@[simp] theorem unpackStatus_flagC (p : Byte) : (unpackStatus p s).flagC = p.getLsbD 0 := rfl
@[simp] theorem unpackStatus_flagZ (p : Byte) : (unpackStatus p s).flagZ = p.getLsbD 1 := rfl
@[simp] theorem unpackStatus_flagI (p : Byte) : (unpackStatus p s).flagI = p.getLsbD 2 := rfl
@[simp] theorem unpackStatus_flagD (p : Byte) : (unpackStatus p s).flagD = s.flagD := rfl
@[simp] theorem unpackStatus_flagV (p : Byte) : (unpackStatus p s).flagV = p.getLsbD 6 := rfl
@[simp] theorem unpackStatus_flagN (p : Byte) : (unpackStatus p s).flagN = p.getLsbD 7 := rfl
@[simp] theorem unpackStatus_halted (p : Byte) : (unpackStatus p s).halted = s.halted := rfl
@[simp] theorem unpackStatus_faultRecord (p : Byte) : (unpackStatus p s).faultRecord = s.faultRecord := rfl
@[simp] theorem unpackStatus_mem (p : Byte) : (unpackStatus p s).mem = s.mem := rfl

@[simp] theorem raiseUnrecognized_a (op : Byte) : (raiseUnrecognized op s).a = s.a := rfl
@[simp] theorem raiseUnrecognized_x (op : Byte) : (raiseUnrecognized op s).x = s.x := rfl
@[simp] theorem raiseUnrecognized_y (op : Byte) : (raiseUnrecognized op s).y = s.y := rfl
@[simp] theorem raiseUnrecognized_sp (op : Byte) : (raiseUnrecognized op s).sp = s.sp := rfl
@[simp] theorem raiseUnrecognized_pc (op : Byte) : (raiseUnrecognized op s).pc = s.pc := rfl
@[simp] theorem raiseUnrecognized_flagC (op : Byte) : (raiseUnrecognized op s).flagC = s.flagC := rfl
@[simp] theorem raiseUnrecognized_flagZ (op : Byte) : (raiseUnrecognized op s).flagZ = s.flagZ := rfl
@[simp] theorem raiseUnrecognized_flagI (op : Byte) : (raiseUnrecognized op s).flagI = s.flagI := rfl
@[simp] theorem raiseUnrecognized_flagD (op : Byte) : (raiseUnrecognized op s).flagD = s.flagD := rfl
@[simp] theorem raiseUnrecognized_flagV (op : Byte) : (raiseUnrecognized op s).flagV = s.flagV := rfl
@[simp] theorem raiseUnrecognized_flagN (op : Byte) : (raiseUnrecognized op s).flagN = s.flagN := rfl
@[simp] theorem raiseUnrecognized_halted (op : Byte) : (raiseUnrecognized op s).halted = true := rfl
@[simp] theorem raiseUnrecognized_faultRecord (op : Byte) : (raiseUnrecognized op s).faultRecord = some ⟨s.pc, op⟩ := rfl
@[simp] theorem raiseUnrecognized_mem (op : Byte) : (raiseUnrecognized op s).mem = s.mem := rfl

@[simp] theorem hostReset_a (b : Bus) : (hostReset s b).a = 0x00 := rfl
@[simp] theorem hostReset_x (b : Bus) : (hostReset s b).x = 0x00 := rfl
@[simp] theorem hostReset_y (b : Bus) : (hostReset s b).y = 0x00 := rfl
@[simp] theorem hostReset_sp (b : Bus) : (hostReset s b).sp = 0xFF := rfl
@[simp] theorem hostReset_pc (b : Bus) : (hostReset s b).pc =
    ofHiLo (b.read (b.afterRead s.mem 0xFFFC) 0xFFFD) (b.read s.mem 0xFFFC) := rfl
@[simp] theorem hostReset_flagC (b : Bus) : (hostReset s b).flagC = false := rfl
@[simp] theorem hostReset_flagZ (b : Bus) : (hostReset s b).flagZ = false := rfl
@[simp] theorem hostReset_flagI (b : Bus) : (hostReset s b).flagI = false := rfl
@[simp] theorem hostReset_flagD (b : Bus) : (hostReset s b).flagD = false := rfl
@[simp] theorem hostReset_flagV (b : Bus) : (hostReset s b).flagV = false := rfl
@[simp] theorem hostReset_flagN (b : Bus) : (hostReset s b).flagN = false := rfl
@[simp] theorem hostReset_halted (b : Bus) : (hostReset s b).halted = false := rfl
@[simp] theorem hostReset_faultRecord (b : Bus) : (hostReset s b).faultRecord = none := rfl
@[simp] theorem hostReset_mem (b : Bus) : (hostReset s b).mem = b.afterRead (b.afterRead s.mem 0xFFFC) 0xFFFD := rfl

@[simp] theorem State.readByte_eq (addr : Addr) : s.readByte addr = s.mem.read addr := rfl

/-- The packed status byte depends on the five packed flags alone. -/
theorem packStatus_congr (s t : State) (hN : s.flagN = t.flagN) (hV : s.flagV = t.flagV) (hI : s.flagI = t.flagI)
    (hZ : s.flagZ = t.flagZ) (hC : s.flagC = t.flagC) : packStatus s = packStatus t := by
  simp [packStatus, hN, hV, hI, hZ, hC]

@[simp] theorem packStatus_push16 (w : Addr) : packStatus (s.push16 w) = packStatus s := rfl

/-- Unpacking the byte that `packStatus` makes gives the five packed flags back. -/
theorem unpackStatus_packStatus (t : State) : unpackStatus (packStatus s) t =
    { t with flagN := s.flagN, flagV := s.flagV, flagI := s.flagI, flagZ := s.flagZ, flagC := s.flagC } := by
  have h : ∀ n v i z c : Bool,
      let p := (ofBit n <<< 7) ||| (ofBit v <<< 6) ||| (ofBit i <<< 2) ||| (ofBit z <<< 1) ||| ofBit c
      p.getLsbD 7 = n ∧ p.getLsbD 6 = v ∧ p.getLsbD 2 = i ∧ p.getLsbD 1 = z ∧ p.getLsbD 0 = c := by decide
  obtain ⟨h7, h6, h2, h1, h0⟩ := h s.flagN s.flagV s.flagI s.flagZ s.flagC
  simp only [unpackStatus, packStatus, h7, h6, h2, h1, h0]

/-! The state the fetch reads leave. -/

@[simp] theorem afterFetch_a (b : Bus) : (afterFetch s b).a = s.a := rfl
@[simp] theorem afterFetch_x (b : Bus) : (afterFetch s b).x = s.x := rfl
@[simp] theorem afterFetch_y (b : Bus) : (afterFetch s b).y = s.y := rfl
@[simp] theorem afterFetch_sp (b : Bus) : (afterFetch s b).sp = s.sp := rfl
@[simp] theorem afterFetch_pc (b : Bus) : (afterFetch s b).pc = s.pc := rfl
@[simp] theorem afterFetch_flagC (b : Bus) : (afterFetch s b).flagC = s.flagC := rfl
@[simp] theorem afterFetch_flagZ (b : Bus) : (afterFetch s b).flagZ = s.flagZ := rfl
@[simp] theorem afterFetch_flagI (b : Bus) : (afterFetch s b).flagI = s.flagI := rfl
@[simp] theorem afterFetch_flagD (b : Bus) : (afterFetch s b).flagD = s.flagD := rfl
@[simp] theorem afterFetch_flagV (b : Bus) : (afterFetch s b).flagV = s.flagV := rfl
@[simp] theorem afterFetch_flagN (b : Bus) : (afterFetch s b).flagN = s.flagN := rfl
@[simp] theorem afterFetch_halted (b : Bus) : (afterFetch s b).halted = s.halted := rfl
@[simp] theorem afterFetch_faultRecord (b : Bus) : (afterFetch s b).faultRecord = s.faultRecord := rfl

/-! Resolving and reading an operand change no register and no flag, over any bus. -/

@[simp] theorem afterAddress_a (m : MemMode) (b : Bus) : (afterAddress m s b).a = s.a := by cases m <;> rfl
@[simp] theorem afterAddress_x (m : MemMode) (b : Bus) : (afterAddress m s b).x = s.x := by cases m <;> rfl
@[simp] theorem afterAddress_y (m : MemMode) (b : Bus) : (afterAddress m s b).y = s.y := by cases m <;> rfl
@[simp] theorem afterAddress_sp (m : MemMode) (b : Bus) : (afterAddress m s b).sp = s.sp := by cases m <;> rfl
@[simp] theorem afterAddress_pc (m : MemMode) (b : Bus) : (afterAddress m s b).pc = s.pc := by cases m <;> rfl
@[simp] theorem afterAddress_flagC (m : MemMode) (b : Bus) : (afterAddress m s b).flagC = s.flagC := by cases m <;> rfl
@[simp] theorem afterAddress_flagZ (m : MemMode) (b : Bus) : (afterAddress m s b).flagZ = s.flagZ := by cases m <;> rfl
@[simp] theorem afterAddress_flagI (m : MemMode) (b : Bus) : (afterAddress m s b).flagI = s.flagI := by cases m <;> rfl
@[simp] theorem afterAddress_flagD (m : MemMode) (b : Bus) : (afterAddress m s b).flagD = s.flagD := by cases m <;> rfl
@[simp] theorem afterAddress_flagV (m : MemMode) (b : Bus) : (afterAddress m s b).flagV = s.flagV := by cases m <;> rfl
@[simp] theorem afterAddress_flagN (m : MemMode) (b : Bus) : (afterAddress m s b).flagN = s.flagN := by cases m <;> rfl
@[simp] theorem afterAddress_halted (m : MemMode) (b : Bus) : (afterAddress m s b).halted = s.halted := by cases m <;> rfl
@[simp] theorem afterAddress_faultRecord (m : MemMode) (b : Bus) : (afterAddress m s b).faultRecord = s.faultRecord := by cases m <;> rfl

@[simp] theorem afterResolve_a (m : Mode) (b : Bus) : (afterResolve m s b).a = s.a := by rcases m with _ | _ | _ | m | _ | _ <;> first | rfl | (cases m <;> rfl)
@[simp] theorem afterResolve_x (m : Mode) (b : Bus) : (afterResolve m s b).x = s.x := by rcases m with _ | _ | _ | m | _ | _ <;> first | rfl | (cases m <;> rfl)
@[simp] theorem afterResolve_y (m : Mode) (b : Bus) : (afterResolve m s b).y = s.y := by rcases m with _ | _ | _ | m | _ | _ <;> first | rfl | (cases m <;> rfl)
@[simp] theorem afterResolve_sp (m : Mode) (b : Bus) : (afterResolve m s b).sp = s.sp := by rcases m with _ | _ | _ | m | _ | _ <;> first | rfl | (cases m <;> rfl)
@[simp] theorem afterResolve_pc (m : Mode) (b : Bus) : (afterResolve m s b).pc = s.pc := by rcases m with _ | _ | _ | m | _ | _ <;> first | rfl | (cases m <;> rfl)
@[simp] theorem afterResolve_flagC (m : Mode) (b : Bus) : (afterResolve m s b).flagC = s.flagC := by rcases m with _ | _ | _ | m | _ | _ <;> first | rfl | (cases m <;> rfl)
@[simp] theorem afterResolve_flagZ (m : Mode) (b : Bus) : (afterResolve m s b).flagZ = s.flagZ := by rcases m with _ | _ | _ | m | _ | _ <;> first | rfl | (cases m <;> rfl)
@[simp] theorem afterResolve_flagI (m : Mode) (b : Bus) : (afterResolve m s b).flagI = s.flagI := by rcases m with _ | _ | _ | m | _ | _ <;> first | rfl | (cases m <;> rfl)
@[simp] theorem afterResolve_flagD (m : Mode) (b : Bus) : (afterResolve m s b).flagD = s.flagD := by rcases m with _ | _ | _ | m | _ | _ <;> first | rfl | (cases m <;> rfl)
@[simp] theorem afterResolve_flagV (m : Mode) (b : Bus) : (afterResolve m s b).flagV = s.flagV := by rcases m with _ | _ | _ | m | _ | _ <;> first | rfl | (cases m <;> rfl)
@[simp] theorem afterResolve_flagN (m : Mode) (b : Bus) : (afterResolve m s b).flagN = s.flagN := by rcases m with _ | _ | _ | m | _ | _ <;> first | rfl | (cases m <;> rfl)
@[simp] theorem afterResolve_halted (m : Mode) (b : Bus) : (afterResolve m s b).halted = s.halted := by rcases m with _ | _ | _ | m | _ | _ <;> first | rfl | (cases m <;> rfl)
@[simp] theorem afterResolve_faultRecord (m : Mode) (b : Bus) : (afterResolve m s b).faultRecord = s.faultRecord := by rcases m with _ | _ | _ | m | _ | _ <;> first | rfl | (cases m <;> rfl)

@[simp] theorem Source.after_a (src : Source) (b : Bus) : (src.after s b).a = s.a := by rcases src with _ | m <;> first | rfl | (cases m <;> rfl)
@[simp] theorem Source.after_x (src : Source) (b : Bus) : (src.after s b).x = s.x := by rcases src with _ | m <;> first | rfl | (cases m <;> rfl)
@[simp] theorem Source.after_y (src : Source) (b : Bus) : (src.after s b).y = s.y := by rcases src with _ | m <;> first | rfl | (cases m <;> rfl)
@[simp] theorem Source.after_sp (src : Source) (b : Bus) : (src.after s b).sp = s.sp := by rcases src with _ | m <;> first | rfl | (cases m <;> rfl)
@[simp] theorem Source.after_pc (src : Source) (b : Bus) : (src.after s b).pc = s.pc := by rcases src with _ | m <;> first | rfl | (cases m <;> rfl)
@[simp] theorem Source.after_flagC (src : Source) (b : Bus) : (src.after s b).flagC = s.flagC := by rcases src with _ | m <;> first | rfl | (cases m <;> rfl)
@[simp] theorem Source.after_flagZ (src : Source) (b : Bus) : (src.after s b).flagZ = s.flagZ := by rcases src with _ | m <;> first | rfl | (cases m <;> rfl)
@[simp] theorem Source.after_flagI (src : Source) (b : Bus) : (src.after s b).flagI = s.flagI := by rcases src with _ | m <;> first | rfl | (cases m <;> rfl)
@[simp] theorem Source.after_flagD (src : Source) (b : Bus) : (src.after s b).flagD = s.flagD := by rcases src with _ | m <;> first | rfl | (cases m <;> rfl)
@[simp] theorem Source.after_flagV (src : Source) (b : Bus) : (src.after s b).flagV = s.flagV := by rcases src with _ | m <;> first | rfl | (cases m <;> rfl)
@[simp] theorem Source.after_flagN (src : Source) (b : Bus) : (src.after s b).flagN = s.flagN := by rcases src with _ | m <;> first | rfl | (cases m <;> rfl)
@[simp] theorem Source.after_halted (src : Source) (b : Bus) : (src.after s b).halted = s.halted := by rcases src with _ | m <;> first | rfl | (cases m <;> rfl)
@[simp] theorem Source.after_faultRecord (src : Source) (b : Bus) : (src.after s b).faultRecord = s.faultRecord := by rcases src with _ | m <;> first | rfl | (cases m <;> rfl)

/-! On plain RAM a read leaves the state as it was (20_memory.md R52). -/

@[simp] theorem ramBus_read (m : Memory) (addr : Addr) : ramBus.read m addr = m.read addr := rfl
@[simp] theorem ramBus_afterRead (m : Memory) (addr : Addr) : ramBus.afterRead m addr = m := rfl
@[simp] theorem ramBus_write (m : Memory) (addr : Addr) (v : Byte) : ramBus.write m addr v = m.write addr v := rfl
@[simp] theorem standardConfig_bus : standardConfig.bus = ramBus := rfl
@[simp] theorem State.afterRead_ram (addr : Addr) : s.afterRead addr = s := rfl
@[simp] theorem afterFetch_ram : afterFetch s = s := rfl
@[simp] theorem afterAddress_ram (m : MemMode) : afterAddress m s = s := by cases m <;> rfl
@[simp] theorem afterIndirect_ram (w : Addr) : afterIndirect w s = s := rfl
@[simp] theorem afterResolve_ram (m : Mode) : afterResolve m s = s := by cases m <;> simp [afterResolve]
@[simp] theorem Source.after_ram (src : Source) : src.after s = s := by cases src <;> simp [Source.after]
@[simp] theorem Handle.afterRead_ram (h : Handle) : h.afterRead s = s := by cases h <;> rfl
@[simp] theorem Target.afterResolve_ram (t : Target) : t.afterResolve s = s := by cases t <;> simp [Target.afterResolve]

/-- R104: on plain RAM the value of a source in a memory mode is the cell at its effective address. -/
theorem Source.value_mem (m : MemMode) : (Source.mem m).value s = s.mem.read (effectiveAddress m s) := by
  simp [Source.value, State.readByte]

end Sys2Proof.Machine
end

