-- ==== Sys2Proof/Laws/Exec.lean ====
section
/-! SUPPORT. For each mnemonic with several modes, the one shared operation that all its forms are, under any parameters
and at the default ones: later proofs about a mnemonic take one case, not one for each form. -/

namespace Sys2Proof.Machine

/-- `exec` is the meaning at the default parameters. -/
theorem execWith_standard (i : Instr) (s : State) : execWith standardConfig i s = exec i s := by
  cases i <;> rfl

theorem execWith_lda {i : Instr} (h : i.mnemonic = .lda) :
    ∃ src : Source, src.mode = i.mode ∧ ∀ c s, execWith c i s = ldaOp src s c.bus := by
  cases i <;> cases h
  case ldaImm.refl v => exact ⟨.imm v, rfl, fun _ _ => rfl⟩
  case ldaZp.refl a1 => exact ⟨.mem (.zp a1), rfl, fun _ _ => rfl⟩
  case ldaZpx.refl a1 => exact ⟨.mem (.zpx a1), rfl, fun _ _ => rfl⟩
  case ldaAbs.refl w => exact ⟨.mem (.abs w), rfl, fun _ _ => rfl⟩
  case ldaAbx.refl w => exact ⟨.mem (.abx w), rfl, fun _ _ => rfl⟩
  case ldaAby.refl w => exact ⟨.mem (.aby w), rfl, fun _ _ => rfl⟩
  case ldaIzx.refl a1 => exact ⟨.mem (.izx a1), rfl, fun _ _ => rfl⟩
  case ldaIzy.refl a1 => exact ⟨.mem (.izy a1), rfl, fun _ _ => rfl⟩

theorem exec_lda {i : Instr} (h : i.mnemonic = .lda) :
    ∃ src : Source, src.mode = i.mode ∧ ∀ s, exec i s = ldaOp src s := by
  obtain ⟨o, hm, he⟩ := execWith_lda h
  exact ⟨o, hm, fun s => (execWith_standard i s).symm.trans (he _ s)⟩

theorem execWith_ldx {i : Instr} (h : i.mnemonic = .ldx) :
    ∃ src : Source, src.mode = i.mode ∧ ∀ c s, execWith c i s = ldxOp src s c.bus := by
  cases i <;> cases h
  case ldxImm.refl v => exact ⟨.imm v, rfl, fun _ _ => rfl⟩
  case ldxZp.refl a1 => exact ⟨.mem (.zp a1), rfl, fun _ _ => rfl⟩
  case ldxZpy.refl a1 => exact ⟨.mem (.zpy a1), rfl, fun _ _ => rfl⟩
  case ldxAbs.refl w => exact ⟨.mem (.abs w), rfl, fun _ _ => rfl⟩
  case ldxAby.refl w => exact ⟨.mem (.aby w), rfl, fun _ _ => rfl⟩

theorem exec_ldx {i : Instr} (h : i.mnemonic = .ldx) :
    ∃ src : Source, src.mode = i.mode ∧ ∀ s, exec i s = ldxOp src s := by
  obtain ⟨o, hm, he⟩ := execWith_ldx h
  exact ⟨o, hm, fun s => (execWith_standard i s).symm.trans (he _ s)⟩

theorem execWith_ldy {i : Instr} (h : i.mnemonic = .ldy) :
    ∃ src : Source, src.mode = i.mode ∧ ∀ c s, execWith c i s = ldyOp src s c.bus := by
  cases i <;> cases h
  case ldyImm.refl v => exact ⟨.imm v, rfl, fun _ _ => rfl⟩
  case ldyZp.refl a1 => exact ⟨.mem (.zp a1), rfl, fun _ _ => rfl⟩
  case ldyZpx.refl a1 => exact ⟨.mem (.zpx a1), rfl, fun _ _ => rfl⟩
  case ldyAbs.refl w => exact ⟨.mem (.abs w), rfl, fun _ _ => rfl⟩
  case ldyAbx.refl w => exact ⟨.mem (.abx w), rfl, fun _ _ => rfl⟩

theorem exec_ldy {i : Instr} (h : i.mnemonic = .ldy) :
    ∃ src : Source, src.mode = i.mode ∧ ∀ s, exec i s = ldyOp src s := by
  obtain ⟨o, hm, he⟩ := execWith_ldy h
  exact ⟨o, hm, fun s => (execWith_standard i s).symm.trans (he _ s)⟩

theorem execWith_adc {i : Instr} (h : i.mnemonic = .adc) :
    ∃ src : Source, src.mode = i.mode ∧ ∀ c s, execWith c i s = adcOp src s c.bus := by
  cases i <;> cases h
  case adcImm.refl v => exact ⟨.imm v, rfl, fun _ _ => rfl⟩
  case adcZp.refl a1 => exact ⟨.mem (.zp a1), rfl, fun _ _ => rfl⟩
  case adcZpx.refl a1 => exact ⟨.mem (.zpx a1), rfl, fun _ _ => rfl⟩
  case adcAbs.refl w => exact ⟨.mem (.abs w), rfl, fun _ _ => rfl⟩
  case adcAbx.refl w => exact ⟨.mem (.abx w), rfl, fun _ _ => rfl⟩
  case adcAby.refl w => exact ⟨.mem (.aby w), rfl, fun _ _ => rfl⟩
  case adcIzx.refl a1 => exact ⟨.mem (.izx a1), rfl, fun _ _ => rfl⟩
  case adcIzy.refl a1 => exact ⟨.mem (.izy a1), rfl, fun _ _ => rfl⟩

theorem exec_adc {i : Instr} (h : i.mnemonic = .adc) :
    ∃ src : Source, src.mode = i.mode ∧ ∀ s, exec i s = adcOp src s := by
  obtain ⟨o, hm, he⟩ := execWith_adc h
  exact ⟨o, hm, fun s => (execWith_standard i s).symm.trans (he _ s)⟩

theorem execWith_sbc {i : Instr} (h : i.mnemonic = .sbc) :
    ∃ src : Source, src.mode = i.mode ∧ ∀ c s, execWith c i s = sbcOp src s c.bus := by
  cases i <;> cases h
  case sbcImm.refl v => exact ⟨.imm v, rfl, fun _ _ => rfl⟩
  case sbcZp.refl a1 => exact ⟨.mem (.zp a1), rfl, fun _ _ => rfl⟩
  case sbcZpx.refl a1 => exact ⟨.mem (.zpx a1), rfl, fun _ _ => rfl⟩
  case sbcAbs.refl w => exact ⟨.mem (.abs w), rfl, fun _ _ => rfl⟩
  case sbcAbx.refl w => exact ⟨.mem (.abx w), rfl, fun _ _ => rfl⟩
  case sbcAby.refl w => exact ⟨.mem (.aby w), rfl, fun _ _ => rfl⟩
  case sbcIzx.refl a1 => exact ⟨.mem (.izx a1), rfl, fun _ _ => rfl⟩
  case sbcIzy.refl a1 => exact ⟨.mem (.izy a1), rfl, fun _ _ => rfl⟩

theorem exec_sbc {i : Instr} (h : i.mnemonic = .sbc) :
    ∃ src : Source, src.mode = i.mode ∧ ∀ s, exec i s = sbcOp src s := by
  obtain ⟨o, hm, he⟩ := execWith_sbc h
  exact ⟨o, hm, fun s => (execWith_standard i s).symm.trans (he _ s)⟩

theorem execWith_and {i : Instr} (h : i.mnemonic = .and) :
    ∃ src : Source, src.mode = i.mode ∧ ∀ c s, execWith c i s = andOp src s c.bus := by
  cases i <;> cases h
  case andImm.refl v => exact ⟨.imm v, rfl, fun _ _ => rfl⟩
  case andZp.refl a1 => exact ⟨.mem (.zp a1), rfl, fun _ _ => rfl⟩
  case andZpx.refl a1 => exact ⟨.mem (.zpx a1), rfl, fun _ _ => rfl⟩
  case andAbs.refl w => exact ⟨.mem (.abs w), rfl, fun _ _ => rfl⟩
  case andAbx.refl w => exact ⟨.mem (.abx w), rfl, fun _ _ => rfl⟩
  case andAby.refl w => exact ⟨.mem (.aby w), rfl, fun _ _ => rfl⟩
  case andIzx.refl a1 => exact ⟨.mem (.izx a1), rfl, fun _ _ => rfl⟩
  case andIzy.refl a1 => exact ⟨.mem (.izy a1), rfl, fun _ _ => rfl⟩

theorem exec_and {i : Instr} (h : i.mnemonic = .and) :
    ∃ src : Source, src.mode = i.mode ∧ ∀ s, exec i s = andOp src s := by
  obtain ⟨o, hm, he⟩ := execWith_and h
  exact ⟨o, hm, fun s => (execWith_standard i s).symm.trans (he _ s)⟩

theorem execWith_ora {i : Instr} (h : i.mnemonic = .ora) :
    ∃ src : Source, src.mode = i.mode ∧ ∀ c s, execWith c i s = oraOp src s c.bus := by
  cases i <;> cases h
  case oraImm.refl v => exact ⟨.imm v, rfl, fun _ _ => rfl⟩
  case oraZp.refl a1 => exact ⟨.mem (.zp a1), rfl, fun _ _ => rfl⟩
  case oraZpx.refl a1 => exact ⟨.mem (.zpx a1), rfl, fun _ _ => rfl⟩
  case oraAbs.refl w => exact ⟨.mem (.abs w), rfl, fun _ _ => rfl⟩
  case oraAbx.refl w => exact ⟨.mem (.abx w), rfl, fun _ _ => rfl⟩
  case oraAby.refl w => exact ⟨.mem (.aby w), rfl, fun _ _ => rfl⟩
  case oraIzx.refl a1 => exact ⟨.mem (.izx a1), rfl, fun _ _ => rfl⟩
  case oraIzy.refl a1 => exact ⟨.mem (.izy a1), rfl, fun _ _ => rfl⟩

theorem exec_ora {i : Instr} (h : i.mnemonic = .ora) :
    ∃ src : Source, src.mode = i.mode ∧ ∀ s, exec i s = oraOp src s := by
  obtain ⟨o, hm, he⟩ := execWith_ora h
  exact ⟨o, hm, fun s => (execWith_standard i s).symm.trans (he _ s)⟩

theorem execWith_eor {i : Instr} (h : i.mnemonic = .eor) :
    ∃ src : Source, src.mode = i.mode ∧ ∀ c s, execWith c i s = eorOp src s c.bus := by
  cases i <;> cases h
  case eorImm.refl v => exact ⟨.imm v, rfl, fun _ _ => rfl⟩
  case eorZp.refl a1 => exact ⟨.mem (.zp a1), rfl, fun _ _ => rfl⟩
  case eorZpx.refl a1 => exact ⟨.mem (.zpx a1), rfl, fun _ _ => rfl⟩
  case eorAbs.refl w => exact ⟨.mem (.abs w), rfl, fun _ _ => rfl⟩
  case eorAbx.refl w => exact ⟨.mem (.abx w), rfl, fun _ _ => rfl⟩
  case eorAby.refl w => exact ⟨.mem (.aby w), rfl, fun _ _ => rfl⟩
  case eorIzx.refl a1 => exact ⟨.mem (.izx a1), rfl, fun _ _ => rfl⟩
  case eorIzy.refl a1 => exact ⟨.mem (.izy a1), rfl, fun _ _ => rfl⟩

theorem exec_eor {i : Instr} (h : i.mnemonic = .eor) :
    ∃ src : Source, src.mode = i.mode ∧ ∀ s, exec i s = eorOp src s := by
  obtain ⟨o, hm, he⟩ := execWith_eor h
  exact ⟨o, hm, fun s => (execWith_standard i s).symm.trans (he _ s)⟩

theorem execWith_cmp {i : Instr} (h : i.mnemonic = .cmp) :
    ∃ src : Source, src.mode = i.mode ∧ ∀ c s, execWith c i s = compareOp s.a src s c.bus := by
  cases i <;> cases h
  case cmpImm.refl v => exact ⟨.imm v, rfl, fun _ _ => rfl⟩
  case cmpZp.refl a1 => exact ⟨.mem (.zp a1), rfl, fun _ _ => rfl⟩
  case cmpZpx.refl a1 => exact ⟨.mem (.zpx a1), rfl, fun _ _ => rfl⟩
  case cmpAbs.refl w => exact ⟨.mem (.abs w), rfl, fun _ _ => rfl⟩
  case cmpAbx.refl w => exact ⟨.mem (.abx w), rfl, fun _ _ => rfl⟩
  case cmpAby.refl w => exact ⟨.mem (.aby w), rfl, fun _ _ => rfl⟩
  case cmpIzx.refl a1 => exact ⟨.mem (.izx a1), rfl, fun _ _ => rfl⟩
  case cmpIzy.refl a1 => exact ⟨.mem (.izy a1), rfl, fun _ _ => rfl⟩

theorem exec_cmp {i : Instr} (h : i.mnemonic = .cmp) :
    ∃ src : Source, src.mode = i.mode ∧ ∀ s, exec i s = compareOp s.a src s := by
  obtain ⟨o, hm, he⟩ := execWith_cmp h
  exact ⟨o, hm, fun s => (execWith_standard i s).symm.trans (he _ s)⟩

theorem execWith_cpx {i : Instr} (h : i.mnemonic = .cpx) :
    ∃ src : Source, src.mode = i.mode ∧ ∀ c s, execWith c i s = compareOp s.x src s c.bus := by
  cases i <;> cases h
  case cpxImm.refl v => exact ⟨.imm v, rfl, fun _ _ => rfl⟩
  case cpxZp.refl a1 => exact ⟨.mem (.zp a1), rfl, fun _ _ => rfl⟩
  case cpxAbs.refl w => exact ⟨.mem (.abs w), rfl, fun _ _ => rfl⟩

theorem exec_cpx {i : Instr} (h : i.mnemonic = .cpx) :
    ∃ src : Source, src.mode = i.mode ∧ ∀ s, exec i s = compareOp s.x src s := by
  obtain ⟨o, hm, he⟩ := execWith_cpx h
  exact ⟨o, hm, fun s => (execWith_standard i s).symm.trans (he _ s)⟩

theorem execWith_cpy {i : Instr} (h : i.mnemonic = .cpy) :
    ∃ src : Source, src.mode = i.mode ∧ ∀ c s, execWith c i s = compareOp s.y src s c.bus := by
  cases i <;> cases h
  case cpyImm.refl v => exact ⟨.imm v, rfl, fun _ _ => rfl⟩
  case cpyZp.refl a1 => exact ⟨.mem (.zp a1), rfl, fun _ _ => rfl⟩
  case cpyAbs.refl w => exact ⟨.mem (.abs w), rfl, fun _ _ => rfl⟩

theorem exec_cpy {i : Instr} (h : i.mnemonic = .cpy) :
    ∃ src : Source, src.mode = i.mode ∧ ∀ s, exec i s = compareOp s.y src s := by
  obtain ⟨o, hm, he⟩ := execWith_cpy h
  exact ⟨o, hm, fun s => (execWith_standard i s).symm.trans (he _ s)⟩

theorem execWith_sta {i : Instr} (h : i.mnemonic = .sta) :
    ∃ m : MemMode, i.mode = .mem m ∧ ∀ c s, execWith c i s = storeOp s.a m s c.bus := by
  cases i <;> cases h
  case staZp.refl a1 => exact ⟨(.zp a1), rfl, fun _ _ => rfl⟩
  case staZpx.refl a1 => exact ⟨(.zpx a1), rfl, fun _ _ => rfl⟩
  case staAbs.refl w => exact ⟨(.abs w), rfl, fun _ _ => rfl⟩
  case staAbx.refl w => exact ⟨(.abx w), rfl, fun _ _ => rfl⟩
  case staAby.refl w => exact ⟨(.aby w), rfl, fun _ _ => rfl⟩
  case staIzx.refl a1 => exact ⟨(.izx a1), rfl, fun _ _ => rfl⟩
  case staIzy.refl a1 => exact ⟨(.izy a1), rfl, fun _ _ => rfl⟩

theorem exec_sta {i : Instr} (h : i.mnemonic = .sta) :
    ∃ m : MemMode, i.mode = .mem m ∧ ∀ s, exec i s = storeOp s.a m s := by
  obtain ⟨o, hm, he⟩ := execWith_sta h
  exact ⟨o, hm, fun s => (execWith_standard i s).symm.trans (he _ s)⟩

theorem execWith_stx {i : Instr} (h : i.mnemonic = .stx) :
    ∃ m : MemMode, i.mode = .mem m ∧ ∀ c s, execWith c i s = storeOp s.x m s c.bus := by
  cases i <;> cases h
  case stxZp.refl a1 => exact ⟨(.zp a1), rfl, fun _ _ => rfl⟩
  case stxZpy.refl a1 => exact ⟨(.zpy a1), rfl, fun _ _ => rfl⟩
  case stxAbs.refl w => exact ⟨(.abs w), rfl, fun _ _ => rfl⟩

theorem exec_stx {i : Instr} (h : i.mnemonic = .stx) :
    ∃ m : MemMode, i.mode = .mem m ∧ ∀ s, exec i s = storeOp s.x m s := by
  obtain ⟨o, hm, he⟩ := execWith_stx h
  exact ⟨o, hm, fun s => (execWith_standard i s).symm.trans (he _ s)⟩

theorem execWith_sty {i : Instr} (h : i.mnemonic = .sty) :
    ∃ m : MemMode, i.mode = .mem m ∧ ∀ c s, execWith c i s = storeOp s.y m s c.bus := by
  cases i <;> cases h
  case styZp.refl a1 => exact ⟨(.zp a1), rfl, fun _ _ => rfl⟩
  case styZpx.refl a1 => exact ⟨(.zpx a1), rfl, fun _ _ => rfl⟩
  case styAbs.refl w => exact ⟨(.abs w), rfl, fun _ _ => rfl⟩

theorem exec_sty {i : Instr} (h : i.mnemonic = .sty) :
    ∃ m : MemMode, i.mode = .mem m ∧ ∀ s, exec i s = storeOp s.y m s := by
  obtain ⟨o, hm, he⟩ := execWith_sty h
  exact ⟨o, hm, fun s => (execWith_standard i s).symm.trans (he _ s)⟩

theorem execWith_bit {i : Instr} (h : i.mnemonic = .bit) :
    ∃ m : MemMode, i.mode = .mem m ∧ ∀ c s, execWith c i s = bitOp m s c.bus := by
  cases i <;> cases h
  case bitZp.refl a1 => exact ⟨(.zp a1), rfl, fun _ _ => rfl⟩
  case bitAbs.refl w => exact ⟨(.abs w), rfl, fun _ _ => rfl⟩

theorem exec_bit {i : Instr} (h : i.mnemonic = .bit) :
    ∃ m : MemMode, i.mode = .mem m ∧ ∀ s, exec i s = bitOp m s := by
  obtain ⟨o, hm, he⟩ := execWith_bit h
  exact ⟨o, hm, fun s => (execWith_standard i s).symm.trans (he _ s)⟩

theorem execWith_inc {i : Instr} (h : i.mnemonic = .inc) :
    ∃ m : MemMode, i.mode = .mem m ∧ ∀ c s, execWith c i s = modifyOp (fun old => old + 1) m s c.bus := by
  cases i <;> cases h
  case incZp.refl a1 => exact ⟨(.zp a1), rfl, fun _ _ => rfl⟩
  case incZpx.refl a1 => exact ⟨(.zpx a1), rfl, fun _ _ => rfl⟩
  case incAbs.refl w => exact ⟨(.abs w), rfl, fun _ _ => rfl⟩
  case incAbx.refl w => exact ⟨(.abx w), rfl, fun _ _ => rfl⟩

theorem exec_inc {i : Instr} (h : i.mnemonic = .inc) :
    ∃ m : MemMode, i.mode = .mem m ∧ ∀ s, exec i s = modifyOp (fun old => old + 1) m s := by
  obtain ⟨o, hm, he⟩ := execWith_inc h
  exact ⟨o, hm, fun s => (execWith_standard i s).symm.trans (he _ s)⟩

theorem execWith_dec {i : Instr} (h : i.mnemonic = .dec) :
    ∃ m : MemMode, i.mode = .mem m ∧ ∀ c s, execWith c i s = modifyOp (fun old => old - 1) m s c.bus := by
  cases i <;> cases h
  case decZp.refl a1 => exact ⟨(.zp a1), rfl, fun _ _ => rfl⟩
  case decZpx.refl a1 => exact ⟨(.zpx a1), rfl, fun _ _ => rfl⟩
  case decAbs.refl w => exact ⟨(.abs w), rfl, fun _ _ => rfl⟩
  case decAbx.refl w => exact ⟨(.abx w), rfl, fun _ _ => rfl⟩

theorem exec_dec {i : Instr} (h : i.mnemonic = .dec) :
    ∃ m : MemMode, i.mode = .mem m ∧ ∀ s, exec i s = modifyOp (fun old => old - 1) m s := by
  obtain ⟨o, hm, he⟩ := execWith_dec h
  exact ⟨o, hm, fun s => (execWith_standard i s).symm.trans (he _ s)⟩

theorem execWith_asl {i : Instr} (h : i.mnemonic = .asl) :
    ∃ t : Target, t.mode = i.mode ∧ ∀ c s, execWith c i s = shiftOp asl t s c.bus := by
  cases i <;> cases h
  case aslAcc.refl => exact ⟨.acc, rfl, fun _ _ => rfl⟩
  case aslZp.refl a1 => exact ⟨.mem (.zp a1), rfl, fun _ _ => rfl⟩
  case aslZpx.refl a1 => exact ⟨.mem (.zpx a1), rfl, fun _ _ => rfl⟩
  case aslAbs.refl w => exact ⟨.mem (.abs w), rfl, fun _ _ => rfl⟩
  case aslAbx.refl w => exact ⟨.mem (.abx w), rfl, fun _ _ => rfl⟩

theorem exec_asl {i : Instr} (h : i.mnemonic = .asl) :
    ∃ t : Target, t.mode = i.mode ∧ ∀ s, exec i s = shiftOp asl t s := by
  obtain ⟨o, hm, he⟩ := execWith_asl h
  exact ⟨o, hm, fun s => (execWith_standard i s).symm.trans (he _ s)⟩

theorem execWith_lsr {i : Instr} (h : i.mnemonic = .lsr) :
    ∃ t : Target, t.mode = i.mode ∧ ∀ c s, execWith c i s = shiftOp lsr t s c.bus := by
  cases i <;> cases h
  case lsrAcc.refl => exact ⟨.acc, rfl, fun _ _ => rfl⟩
  case lsrZp.refl a1 => exact ⟨.mem (.zp a1), rfl, fun _ _ => rfl⟩
  case lsrZpx.refl a1 => exact ⟨.mem (.zpx a1), rfl, fun _ _ => rfl⟩
  case lsrAbs.refl w => exact ⟨.mem (.abs w), rfl, fun _ _ => rfl⟩
  case lsrAbx.refl w => exact ⟨.mem (.abx w), rfl, fun _ _ => rfl⟩

theorem exec_lsr {i : Instr} (h : i.mnemonic = .lsr) :
    ∃ t : Target, t.mode = i.mode ∧ ∀ s, exec i s = shiftOp lsr t s := by
  obtain ⟨o, hm, he⟩ := execWith_lsr h
  exact ⟨o, hm, fun s => (execWith_standard i s).symm.trans (he _ s)⟩

theorem execWith_rol {i : Instr} (h : i.mnemonic = .rol) :
    ∃ t : Target, t.mode = i.mode ∧ ∀ c s, execWith c i s = shiftOp (fun old => rol old s.flagC) t s c.bus := by
  cases i <;> cases h
  case rolAcc.refl => exact ⟨.acc, rfl, fun _ _ => rfl⟩
  case rolZp.refl a1 => exact ⟨.mem (.zp a1), rfl, fun _ _ => rfl⟩
  case rolZpx.refl a1 => exact ⟨.mem (.zpx a1), rfl, fun _ _ => rfl⟩
  case rolAbs.refl w => exact ⟨.mem (.abs w), rfl, fun _ _ => rfl⟩
  case rolAbx.refl w => exact ⟨.mem (.abx w), rfl, fun _ _ => rfl⟩

theorem exec_rol {i : Instr} (h : i.mnemonic = .rol) :
    ∃ t : Target, t.mode = i.mode ∧ ∀ s, exec i s = shiftOp (fun old => rol old s.flagC) t s := by
  obtain ⟨o, hm, he⟩ := execWith_rol h
  exact ⟨o, hm, fun s => (execWith_standard i s).symm.trans (he _ s)⟩

theorem execWith_ror {i : Instr} (h : i.mnemonic = .ror) :
    ∃ t : Target, t.mode = i.mode ∧ ∀ c s, execWith c i s = shiftOp (fun old => ror old s.flagC) t s c.bus := by
  cases i <;> cases h
  case rorAcc.refl => exact ⟨.acc, rfl, fun _ _ => rfl⟩
  case rorZp.refl a1 => exact ⟨.mem (.zp a1), rfl, fun _ _ => rfl⟩
  case rorZpx.refl a1 => exact ⟨.mem (.zpx a1), rfl, fun _ _ => rfl⟩
  case rorAbs.refl w => exact ⟨.mem (.abs w), rfl, fun _ _ => rfl⟩
  case rorAbx.refl w => exact ⟨.mem (.abx w), rfl, fun _ _ => rfl⟩

/-- R104: a source operand's value is the operand value of its mode. -/

theorem exec_ror {i : Instr} (h : i.mnemonic = .ror) :
    ∃ t : Target, t.mode = i.mode ∧ ∀ s, exec i s = shiftOp (fun old => ror old s.flagC) t s := by
  obtain ⟨o, hm, he⟩ := execWith_ror h
  exact ⟨o, hm, fun s => (execWith_standard i s).symm.trans (he _ s)⟩

theorem operandValue_source (src : Source) (s : State) : operandValue (resolve src.mode s) s = some (src.value s) := by
  cases src <;> simp [Source.mode, resolve, operandValue, Source.value]

end Sys2Proof.Machine
end

