-- ==== Sys2Proof/Laws/Ops.lean ====
section
/-! SUPPORT. For each shared operation, the one next state it answers, field by field. -/

namespace Sys2Proof.Machine

variable (s : State)

theorem ldaOp_eq (src : Source) : ldaOp src s = .next { s with
    a := src.value s, flagN := signOf (src.value s), flagZ := zeroOf (src.value s)
    pc := s.pc + BitVec.ofNat 16 src.length } := by
  simp [ldaOp]; rfl

theorem ldxOp_eq (src : Source) : ldxOp src s = .next { s with
    x := src.value s, flagN := signOf (src.value s), flagZ := zeroOf (src.value s)
    pc := s.pc + BitVec.ofNat 16 src.length } := by
  simp [ldxOp]; rfl

theorem ldyOp_eq (src : Source) : ldyOp src s = .next { s with
    y := src.value s, flagN := signOf (src.value s), flagZ := zeroOf (src.value s)
    pc := s.pc + BitVec.ofNat 16 src.length } := by
  simp [ldyOp]; rfl

theorem storeOp_eq (v : Byte) (m : MemMode) : storeOp v m s = .next { s with
    mem := s.mem.write (effectiveAddress m s) v, pc := s.pc + BitVec.ofNat 16 (memLength m) } := by
  simp [storeOp]; rfl

theorem addOp_eq (m : Byte) (len : Nat) : addOp m len s = .next { s with
    a := (adc s.a m s.flagC).value, flagC := (adc s.a m s.flagC).c, flagV := (adc s.a m s.flagC).v
    flagN := signOf (adc s.a m s.flagC).value, flagZ := zeroOf (adc s.a m s.flagC).value
    pc := s.pc + BitVec.ofNat 16 len } := rfl

theorem logicOp_eq (r : Byte) (len : Nat) : logicOp r len s = .next { s with
    a := r, flagN := signOf r, flagZ := zeroOf r, pc := s.pc + BitVec.ofNat 16 len } := rfl

theorem compareOp_eq (r : Byte) (src : Source) : compareOp r src s = .next { s with
    flagC := (cmp r (src.value s)).c, flagZ := (cmp r (src.value s)).z, flagN := (cmp r (src.value s)).n
    pc := s.pc + BitVec.ofNat 16 src.length } := by
  simp [compareOp]; rfl

theorem bitOp_eq (m : MemMode) : bitOp m s = .next { s with
    flagZ := (bitTest s.a (s.mem.read (effectiveAddress m s))).z
    flagV := (bitTest s.a (s.mem.read (effectiveAddress m s))).v
    flagN := (bitTest s.a (s.mem.read (effectiveAddress m s))).n
    pc := s.pc + BitVec.ofNat 16 (memLength m) } := by
  cases m <;> rfl

theorem shiftOp_acc (f : Byte → ShiftResult) : shiftOp f .acc s = .next { s with
    a := (f s.a).value, flagC := (f s.a).c, flagN := signOf (f s.a).value, flagZ := zeroOf (f s.a).value
    pc := s.pc + 1 } := rfl

theorem shiftOp_mem (f : Byte → ShiftResult) (m : MemMode) : shiftOp f (.mem m) s =
    let r := f (s.mem.read (effectiveAddress m s))
    .next { s with
      mem := s.mem.write (effectiveAddress m s) r.value, flagC := r.c, flagN := signOf r.value
      flagZ := zeroOf r.value, pc := s.pc + BitVec.ofNat 16 (memLength m) } := by
  simp [shiftOp, Target.handle, Handle.read, Handle.write, State.readByte]; rfl

theorem modifyOp_eq (f : Byte → Byte) (m : MemMode) : modifyOp f m s =
    let v := f (s.mem.read (effectiveAddress m s))
    .next { s with
      mem := s.mem.write (effectiveAddress m s) v, flagN := signOf v, flagZ := zeroOf v
      pc := s.pc + BitVec.ofNat 16 (memLength m) } := by
  simp [modifyOp, Source.value_mem]; rfl

theorem branchOp_eq (cond : Bool) (d : Byte) : branchOp cond d s = .next { s with
    pc := if cond then s.pc + 2 + sext16 d else s.pc + 2 } := rfl

theorem txsWith_eq (b : Bool) : txsWith b s = { s with
    sp := s.x
    flagN := if b then signOf s.x else s.flagN
    flagZ := if b then zeroOf s.x else s.flagZ
    pc := s.pc + 1 } := by
  cases b <;> rfl

/-- R29: the bits of the status byte, all at once. -/
theorem packStatus_bits : (packStatus s)[7] = s.flagN ∧ (packStatus s)[6] = s.flagV ∧ (packStatus s)[5] = false ∧
    (packStatus s)[4] = false ∧ (packStatus s)[3] = false ∧ (packStatus s)[2] = s.flagI ∧
    (packStatus s)[1] = s.flagZ ∧ (packStatus s)[0] = s.flagC := by
  unfold packStatus
  generalize s.flagN = n, s.flagV = v, s.flagI = i, s.flagZ = z, s.flagC = c
  revert n v i z c
  decide

@[simp] theorem packStatus_bit7 : (packStatus s)[7] = s.flagN := (packStatus_bits s).1
@[simp] theorem packStatus_bit6 : (packStatus s)[6] = s.flagV := (packStatus_bits s).2.1
@[simp] theorem packStatus_bit5 : (packStatus s)[5] = false := (packStatus_bits s).2.2.1
@[simp] theorem packStatus_bit4 : (packStatus s)[4] = false := (packStatus_bits s).2.2.2.1
@[simp] theorem packStatus_bit3 : (packStatus s)[3] = false := (packStatus_bits s).2.2.2.2.1
@[simp] theorem packStatus_bit2 : (packStatus s)[2] = s.flagI := (packStatus_bits s).2.2.2.2.2.1
@[simp] theorem packStatus_bit1 : (packStatus s)[1] = s.flagZ := (packStatus_bits s).2.2.2.2.2.2.1
@[simp] theorem packStatus_bit0 : (packStatus s)[0] = s.flagC := (packStatus_bits s).2.2.2.2.2.2.2

/-- A push changes the one cell `0x0100 + SP`. -/
theorem State.push8_read (v : Byte) (b : Addr) :
    (s.push8 v).mem.read b = if b = stackAddr s.sp then v else s.mem.read b := by
  simp [Memory.read_write]

/-- A pull right after a push answers the byte pushed. -/
theorem State.pop8Value_push8 (v : Byte) : (s.push8 v).pop8Value = v := by
  simp [State.pop8Value]

/-- The cells BRK leaves: the three pushed bytes below 0x0100 + SP, and the rest of the bus. -/
theorem enterBreak_mem (vector : Addr) : (enterBreak vector s).mem =
    ((s.mem.write (stackAddr s.sp) (hiByte (s.pc + 2))).write (stackAddr (s.sp - 1)) (loByte (s.pc + 2))).write
      (stackAddr (s.sp - 2)) (packStatus s) := by
  simp [enterBreak]

/-! BRK changes SP, I, PC and the bus alone. -/

@[simp] theorem enterBreak_a (vector : Addr) : (enterBreak vector s).a = s.a := by simp [enterBreak]
@[simp] theorem enterBreak_x (vector : Addr) : (enterBreak vector s).x = s.x := by simp [enterBreak]
@[simp] theorem enterBreak_y (vector : Addr) : (enterBreak vector s).y = s.y := by simp [enterBreak]
@[simp] theorem enterBreak_sp (vector : Addr) : (enterBreak vector s).sp = s.sp - 3 := by simp [enterBreak]
@[simp] theorem enterBreak_pc (vector : Addr) : (enterBreak vector s).pc =
    ofHiLo ((enterBreak vector s).mem.read (vector + 1)) ((enterBreak vector s).mem.read vector) := by simp [enterBreak]
@[simp] theorem enterBreak_flagC (vector : Addr) : (enterBreak vector s).flagC = s.flagC := by simp [enterBreak]
@[simp] theorem enterBreak_flagZ (vector : Addr) : (enterBreak vector s).flagZ = s.flagZ := by simp [enterBreak]
@[simp] theorem enterBreak_flagI (vector : Addr) : (enterBreak vector s).flagI = true := by simp [enterBreak]
@[simp] theorem enterBreak_flagD (vector : Addr) : (enterBreak vector s).flagD = s.flagD := by simp [enterBreak]
@[simp] theorem enterBreak_flagV (vector : Addr) : (enterBreak vector s).flagV = s.flagV := by simp [enterBreak]
@[simp] theorem enterBreak_flagN (vector : Addr) : (enterBreak vector s).flagN = s.flagN := by simp [enterBreak]
@[simp] theorem enterBreak_halted (vector : Addr) : (enterBreak vector s).halted = s.halted := by simp [enterBreak]
@[simp] theorem enterBreak_faultRecord (vector : Addr) : (enterBreak vector s).faultRecord = s.faultRecord := by simp [enterBreak]

/-! RTI changes the five unpacked flags, SP and PC alone. -/

@[simp] theorem returnFromBreak_a : (returnFromBreak s).a = s.a := by simp [returnFromBreak, State.pop8Value]
@[simp] theorem returnFromBreak_x : (returnFromBreak s).x = s.x := by simp [returnFromBreak, State.pop8Value]
@[simp] theorem returnFromBreak_y : (returnFromBreak s).y = s.y := by simp [returnFromBreak, State.pop8Value]
@[simp] theorem returnFromBreak_sp : (returnFromBreak s).sp = s.sp + 3 := by simp [returnFromBreak, State.pop8Value]
@[simp] theorem returnFromBreak_pc : (returnFromBreak s).pc =
    ofHiLo (s.mem.read (stackAddr (s.sp + 3))) (s.mem.read (stackAddr (s.sp + 2))) := by
  simp [returnFromBreak, State.pop16Value, State.pop8Value]
@[simp] theorem returnFromBreak_flagC : (returnFromBreak s).flagC = s.pop8Value.getLsbD 0 := by simp [returnFromBreak, State.pop8Value]
@[simp] theorem returnFromBreak_flagZ : (returnFromBreak s).flagZ = s.pop8Value.getLsbD 1 := by simp [returnFromBreak, State.pop8Value]
@[simp] theorem returnFromBreak_flagI : (returnFromBreak s).flagI = s.pop8Value.getLsbD 2 := by simp [returnFromBreak, State.pop8Value]
@[simp] theorem returnFromBreak_flagD : (returnFromBreak s).flagD = s.flagD := by simp [returnFromBreak, State.pop8Value]
@[simp] theorem returnFromBreak_flagV : (returnFromBreak s).flagV = s.pop8Value.getLsbD 6 := by simp [returnFromBreak, State.pop8Value]
@[simp] theorem returnFromBreak_flagN : (returnFromBreak s).flagN = s.pop8Value.getLsbD 7 := by simp [returnFromBreak, State.pop8Value]
@[simp] theorem returnFromBreak_halted : (returnFromBreak s).halted = s.halted := by simp [returnFromBreak, State.pop8Value]
@[simp] theorem returnFromBreak_faultRecord : (returnFromBreak s).faultRecord = s.faultRecord := by simp [returnFromBreak, State.pop8Value]
@[simp] theorem returnFromBreak_mem : (returnFromBreak s).mem = s.mem := by simp [returnFromBreak, State.pop8Value]

end Sys2Proof.Machine
end

