-- ==== Sys2Proof/Laws/PerInstr.lean ====
section
/-! SUPPORT. Facts proved once for each instruction. -/

/-- The encoding of an instruction has the length that its row of the opcode table gives (30_encoding.md R70, R71). -/
def Sys2Proof.Laws.EncodedLength.Statement (i : Sys2Proof.Instr) : Prop :=
  (Sys2Proof.encode i).length = i.length

namespace Sys2Proof.Laws.EncodedLength

theorem brk : Statement (.brk) := rfl
theorem oraImm (v : Byte) : Statement (.oraImm v) := rfl
theorem oraZp (a1 : Byte) : Statement (.oraZp a1) := rfl
theorem oraZpx (a1 : Byte) : Statement (.oraZpx a1) := rfl
theorem oraAbs (w : Addr) : Statement (.oraAbs w) := rfl
theorem oraAbx (w : Addr) : Statement (.oraAbx w) := rfl
theorem oraAby (w : Addr) : Statement (.oraAby w) := rfl
theorem oraIzx (a1 : Byte) : Statement (.oraIzx a1) := rfl
theorem oraIzy (a1 : Byte) : Statement (.oraIzy a1) := rfl
theorem aslAcc : Statement (.aslAcc) := rfl
theorem aslZp (a1 : Byte) : Statement (.aslZp a1) := rfl
theorem aslZpx (a1 : Byte) : Statement (.aslZpx a1) := rfl
theorem aslAbs (w : Addr) : Statement (.aslAbs w) := rfl
theorem aslAbx (w : Addr) : Statement (.aslAbx w) := rfl
theorem php : Statement (.php) := rfl
theorem bpl (d : Byte) : Statement (.bpl d) := rfl
theorem clc : Statement (.clc) := rfl
theorem jsr (w : Addr) : Statement (.jsr w) := rfl
theorem andImm (v : Byte) : Statement (.andImm v) := rfl
theorem andZp (a1 : Byte) : Statement (.andZp a1) := rfl
theorem andZpx (a1 : Byte) : Statement (.andZpx a1) := rfl
theorem andAbs (w : Addr) : Statement (.andAbs w) := rfl
theorem andAbx (w : Addr) : Statement (.andAbx w) := rfl
theorem andAby (w : Addr) : Statement (.andAby w) := rfl
theorem andIzx (a1 : Byte) : Statement (.andIzx a1) := rfl
theorem andIzy (a1 : Byte) : Statement (.andIzy a1) := rfl
theorem bitZp (a1 : Byte) : Statement (.bitZp a1) := rfl
theorem bitAbs (w : Addr) : Statement (.bitAbs w) := rfl
theorem rolAcc : Statement (.rolAcc) := rfl
theorem rolZp (a1 : Byte) : Statement (.rolZp a1) := rfl
theorem rolZpx (a1 : Byte) : Statement (.rolZpx a1) := rfl
theorem rolAbs (w : Addr) : Statement (.rolAbs w) := rfl
theorem rolAbx (w : Addr) : Statement (.rolAbx w) := rfl
theorem plp : Statement (.plp) := rfl
theorem bmi (d : Byte) : Statement (.bmi d) := rfl
theorem sec : Statement (.sec) := rfl
theorem rti : Statement (.rti) := rfl
theorem eorImm (v : Byte) : Statement (.eorImm v) := rfl
theorem eorZp (a1 : Byte) : Statement (.eorZp a1) := rfl
theorem eorZpx (a1 : Byte) : Statement (.eorZpx a1) := rfl
theorem eorAbs (w : Addr) : Statement (.eorAbs w) := rfl
theorem eorAbx (w : Addr) : Statement (.eorAbx w) := rfl
theorem eorAby (w : Addr) : Statement (.eorAby w) := rfl
theorem eorIzx (a1 : Byte) : Statement (.eorIzx a1) := rfl
theorem eorIzy (a1 : Byte) : Statement (.eorIzy a1) := rfl
theorem lsrAcc : Statement (.lsrAcc) := rfl
theorem lsrZp (a1 : Byte) : Statement (.lsrZp a1) := rfl
theorem lsrZpx (a1 : Byte) : Statement (.lsrZpx a1) := rfl
theorem lsrAbs (w : Addr) : Statement (.lsrAbs w) := rfl
theorem lsrAbx (w : Addr) : Statement (.lsrAbx w) := rfl
theorem pha : Statement (.pha) := rfl
theorem jmpAbs (w : Addr) : Statement (.jmpAbs w) := rfl
theorem jmpInd (w : Addr) : Statement (.jmpInd w) := rfl
theorem bvc (d : Byte) : Statement (.bvc d) := rfl
theorem cli : Statement (.cli) := rfl
theorem rts : Statement (.rts) := rfl
theorem adcImm (v : Byte) : Statement (.adcImm v) := rfl
theorem adcZp (a1 : Byte) : Statement (.adcZp a1) := rfl
theorem adcZpx (a1 : Byte) : Statement (.adcZpx a1) := rfl
theorem adcAbs (w : Addr) : Statement (.adcAbs w) := rfl
theorem adcAbx (w : Addr) : Statement (.adcAbx w) := rfl
theorem adcAby (w : Addr) : Statement (.adcAby w) := rfl
theorem adcIzx (a1 : Byte) : Statement (.adcIzx a1) := rfl
theorem adcIzy (a1 : Byte) : Statement (.adcIzy a1) := rfl
theorem rorAcc : Statement (.rorAcc) := rfl
theorem rorZp (a1 : Byte) : Statement (.rorZp a1) := rfl
theorem rorZpx (a1 : Byte) : Statement (.rorZpx a1) := rfl
theorem rorAbs (w : Addr) : Statement (.rorAbs w) := rfl
theorem rorAbx (w : Addr) : Statement (.rorAbx w) := rfl
theorem pla : Statement (.pla) := rfl
theorem bvs (d : Byte) : Statement (.bvs d) := rfl
theorem sei : Statement (.sei) := rfl
theorem staZp (a1 : Byte) : Statement (.staZp a1) := rfl
theorem staZpx (a1 : Byte) : Statement (.staZpx a1) := rfl
theorem staAbs (w : Addr) : Statement (.staAbs w) := rfl
theorem staAbx (w : Addr) : Statement (.staAbx w) := rfl
theorem staAby (w : Addr) : Statement (.staAby w) := rfl
theorem staIzx (a1 : Byte) : Statement (.staIzx a1) := rfl
theorem staIzy (a1 : Byte) : Statement (.staIzy a1) := rfl
theorem styZp (a1 : Byte) : Statement (.styZp a1) := rfl
theorem styZpx (a1 : Byte) : Statement (.styZpx a1) := rfl
theorem styAbs (w : Addr) : Statement (.styAbs w) := rfl
theorem stxZp (a1 : Byte) : Statement (.stxZp a1) := rfl
theorem stxZpy (a1 : Byte) : Statement (.stxZpy a1) := rfl
theorem stxAbs (w : Addr) : Statement (.stxAbs w) := rfl
theorem dey : Statement (.dey) := rfl
theorem txa : Statement (.txa) := rfl
theorem bcc (d : Byte) : Statement (.bcc d) := rfl
theorem tya : Statement (.tya) := rfl
theorem txs : Statement (.txs) := rfl
theorem ldyImm (v : Byte) : Statement (.ldyImm v) := rfl
theorem ldyZp (a1 : Byte) : Statement (.ldyZp a1) := rfl
theorem ldyZpx (a1 : Byte) : Statement (.ldyZpx a1) := rfl
theorem ldyAbs (w : Addr) : Statement (.ldyAbs w) := rfl
theorem ldyAbx (w : Addr) : Statement (.ldyAbx w) := rfl
theorem ldaImm (v : Byte) : Statement (.ldaImm v) := rfl
theorem ldaZp (a1 : Byte) : Statement (.ldaZp a1) := rfl
theorem ldaZpx (a1 : Byte) : Statement (.ldaZpx a1) := rfl
theorem ldaAbs (w : Addr) : Statement (.ldaAbs w) := rfl
theorem ldaAbx (w : Addr) : Statement (.ldaAbx w) := rfl
theorem ldaAby (w : Addr) : Statement (.ldaAby w) := rfl
theorem ldaIzx (a1 : Byte) : Statement (.ldaIzx a1) := rfl
theorem ldaIzy (a1 : Byte) : Statement (.ldaIzy a1) := rfl
theorem ldxImm (v : Byte) : Statement (.ldxImm v) := rfl
theorem ldxZp (a1 : Byte) : Statement (.ldxZp a1) := rfl
theorem ldxZpy (a1 : Byte) : Statement (.ldxZpy a1) := rfl
theorem ldxAbs (w : Addr) : Statement (.ldxAbs w) := rfl
theorem ldxAby (w : Addr) : Statement (.ldxAby w) := rfl
theorem tay : Statement (.tay) := rfl
theorem tax : Statement (.tax) := rfl
theorem bcs (d : Byte) : Statement (.bcs d) := rfl
theorem clv : Statement (.clv) := rfl
theorem tsx : Statement (.tsx) := rfl
theorem cpyImm (v : Byte) : Statement (.cpyImm v) := rfl
theorem cpyZp (a1 : Byte) : Statement (.cpyZp a1) := rfl
theorem cpyAbs (w : Addr) : Statement (.cpyAbs w) := rfl
theorem cmpImm (v : Byte) : Statement (.cmpImm v) := rfl
theorem cmpZp (a1 : Byte) : Statement (.cmpZp a1) := rfl
theorem cmpZpx (a1 : Byte) : Statement (.cmpZpx a1) := rfl
theorem cmpAbs (w : Addr) : Statement (.cmpAbs w) := rfl
theorem cmpAbx (w : Addr) : Statement (.cmpAbx w) := rfl
theorem cmpAby (w : Addr) : Statement (.cmpAby w) := rfl
theorem cmpIzx (a1 : Byte) : Statement (.cmpIzx a1) := rfl
theorem cmpIzy (a1 : Byte) : Statement (.cmpIzy a1) := rfl
theorem decZp (a1 : Byte) : Statement (.decZp a1) := rfl
theorem decZpx (a1 : Byte) : Statement (.decZpx a1) := rfl
theorem decAbs (w : Addr) : Statement (.decAbs w) := rfl
theorem decAbx (w : Addr) : Statement (.decAbx w) := rfl
theorem iny : Statement (.iny) := rfl
theorem dex : Statement (.dex) := rfl
theorem bne (d : Byte) : Statement (.bne d) := rfl
theorem cld : Statement (.cld) := rfl
theorem cpxImm (v : Byte) : Statement (.cpxImm v) := rfl
theorem cpxZp (a1 : Byte) : Statement (.cpxZp a1) := rfl
theorem cpxAbs (w : Addr) : Statement (.cpxAbs w) := rfl
theorem sbcImm (v : Byte) : Statement (.sbcImm v) := rfl
theorem sbcZp (a1 : Byte) : Statement (.sbcZp a1) := rfl
theorem sbcZpx (a1 : Byte) : Statement (.sbcZpx a1) := rfl
theorem sbcAbs (w : Addr) : Statement (.sbcAbs w) := rfl
theorem sbcAbx (w : Addr) : Statement (.sbcAbx w) := rfl
theorem sbcAby (w : Addr) : Statement (.sbcAby w) := rfl
theorem sbcIzx (a1 : Byte) : Statement (.sbcIzx a1) := rfl
theorem sbcIzy (a1 : Byte) : Statement (.sbcIzy a1) := rfl
theorem incZp (a1 : Byte) : Statement (.incZp a1) := rfl
theorem incZpx (a1 : Byte) : Statement (.incZpx a1) := rfl
theorem incAbs (w : Addr) : Statement (.incAbs w) := rfl
theorem incAbx (w : Addr) : Statement (.incAbx w) := rfl
theorem inx : Statement (.inx) := rfl
theorem nop : Statement (.nop) := rfl
theorem beq (d : Byte) : Statement (.beq d) := rfl
theorem sed : Statement (.sed) := rfl

end Sys2Proof.Laws.EncodedLength
end

