-- ==== Sys2Proof/Laws/Step.lean ====
section
/-! SUPPORT. What a step can do, said once, and the machine at the default parameters. -/

namespace Sys2Proof.Machine

/-- A step with a next state started on a running core, and either the opcode byte was unrecognized and the core halted,
or a recognized instruction ran. -/
theorem step_cases {s t : State} (h : step s = .next t) : s.halted = false ∧
    ((decodeBytes (fetch s).op (fetch s).arg1 (fetch s).arg2 = .unrecognized (fetch s).op ∧
        t = raiseUnrecognized (fetch s).op s) ∨
      ∃ i, decodeBytes (fetch s).op (fetch s).arg1 (fetch s).arg2 = .recognized i ∧ exec i s = .next t) := by
  unfold step at h
  split at h
  · cases h
  · refine ⟨by simp_all, ?_⟩
    rw [decodeBytes_eq] at h ⊢
    cases hd : decodeTable (fetch s).op (fetch s).arg1 (fetch s).arg2 with
    | none => rw [hd] at h; exact .inl ⟨rfl, (Host.Outcome.next.inj h).symm⟩
    | some i => rw [hd] at h; exact .inr ⟨i, rfl, h⟩

/-- The same under any parameters: the fetch reads happen first, and then either the core halts or an instruction runs. -/
theorem stepWith_cases {c : Config} {s t : State} (h : stepWith c s = .next t) : s.halted = false ∧
    ((∃ op, decodeIn c.recognizedSet (fetch s c.bus).op (fetch s c.bus).arg1 (fetch s c.bus).arg2 = .unrecognized op ∧
        t = raiseUnrecognized op (afterFetch s c.bus)) ∨
      ∃ i, decodeIn c.recognizedSet (fetch s c.bus).op (fetch s c.bus).arg1 (fetch s c.bus).arg2 = .recognized i ∧
        execWith c i (afterFetch s c.bus) = .next t) := by
  unfold stepWith at h
  split at h
  · cases h
  · refine ⟨by simp_all, ?_⟩
    split at h
    · exact .inl ⟨_, by assumption, (Host.Outcome.next.inj h).symm⟩
    · exact .inr ⟨_, by assumption, h⟩

/-- `step` is the machine at the default parameters. -/
theorem stepWith_standard (s : State) : stepWith standardConfig s = step s := by
  unfold stepWith step decodeBytes
  simp only [execWith_standard]
  rfl

end Sys2Proof.Machine
end

