-- ==== Sys2Proof/Tests/Slice0.lean ====
section
/-! SUPPORT. The model's own tests. Expected results are the spec's: the vectors of spec/95_test_vectors.md (each test names
its vector), the source's worked examples, and the opcode map. At most two vectors are taken for an opcode byte. -/

namespace Sys2Proof.Tests

open Sys2Proof.Machine

/-- A flag, by its letter. -/
inductive Flag where
  | n | v | d | i | z | c
deriving DecidableEq, Repr

/-- The bus holding these cells and no other. -/
def busOf : List (Addr × Byte) → Memory
  | [] => Memory.blank
  | (a, v) :: l => (busOf l).write a v

/-- These bytes at consecutive addresses from `pc`. -/
def codeAt (pc : Addr) : List Byte → List (Addr × Byte)
  | [] => []
  | b :: l => (pc, b) :: codeAt (pc + 1) l

/-- The reset values with `PC` placed at `pc`, the code there, and these cells (the start state of a vector). -/
def loaded (pc : Addr) (code : List Byte) (cells : List (Addr × Byte)) : State :=
  { State.resetWith (busOf (codeAt pc code ++ cells)) with pc := pc }

/-- What a vector lists of an end state: A, X, Y, SP, PC and the flags that are set. -/
structure Registers where
  a : Byte
  x : Byte
  y : Byte
  sp : Byte
  pc : Addr
  flags : List Flag
deriving DecidableEq, Repr

def registers (a x y sp : Byte) (pc : Addr) (flags : List Flag) : Registers := ⟨a, x, y, sp, pc, flags⟩

/-- The flags that are set, in the order of the vectors. -/
def flagsOf (s : State) : List Flag :=
  [(Flag.n, s.flagN), (.v, s.flagV), (.d, s.flagD), (.i, s.flagI), (.z, s.flagZ), (.c, s.flagC)].filterMap
    fun p => if p.2 then some p.1 else none

/-- The registers and flags of the next state, and its bytes at the addresses given. -/
def seenAfter (r : Result) (at' : List Addr) : Option (Registers × List Byte) :=
  match r with
  | .next t => some (⟨t.a, t.x, t.y, t.sp, t.pc, flagsOf t⟩, at'.map t.readByte)
  | .fault _ => none
  | .refused _ => none

/-- The fault record of the next state, if it is halted. -/
def haltRecord (r : Result) : Option FaultRecord :=
  match r with
  | .next t => if t.halted then t.faultRecord else none
  | .fault _ => none
  | .refused _ => none

/-- V1 (R95). -/
theorem test_ldaZpx_V1 : seenAfter (step ({ loaded 0x8000 [0xB5, 0xF8] [(0x0008, 0x42), (0x0108, 0x99)] with x := 0x10 })) [] =
    some (registers 0x42 0x10 0x00 0xFF 0x8002 [], []) ∧
    (busAccesses ({ loaded 0x8000 [0xB5, 0xF8] [(0x0008, 0x42), (0x0108, 0x99)] with x := 0x10 })).drop 3 = [.read 0x0008 0x42] := by decide

/-- V2 (R96). -/
theorem test_ldxZpy_V2 : seenAfter (step ({ loaded 0x8000 [0xB6, 0xFF] [(0x0001, 0x99), (0x0101, 0x11)] with y := 0x02 })) [] =
    some (registers 0x00 0x99 0x02 0xFF 0x8002 [.n], []) ∧
    (busAccesses ({ loaded 0x8000 [0xB6, 0xFF] [(0x0001, 0x99), (0x0101, 0x11)] with y := 0x02 })).drop 3 = [.read 0x0001 0x99] := by decide

/-- V3 (R98). -/
theorem test_ldaAbx_V3 : seenAfter (step ({ loaded 0x8000 [0xBD, 0xFF, 0xFF] [(0x0000, 0x7F)] with x := 0x01 })) [] =
    some (registers 0x7F 0x01 0x00 0xFF 0x8003 [], []) ∧
    (busAccesses ({ loaded 0x8000 [0xBD, 0xFF, 0xFF] [(0x0000, 0x7F)] with x := 0x01 })).drop 3 = [.read 0x0000 0x7F] := by decide

/-- V4 (R98). -/
theorem test_ldaAbx_V4 : seenAfter (step ({ loaded 0x8000 [0xBD, 0xF0, 0x12] [(0x1310, 0x01)] with x := 0x20 })) [] =
    some (registers 0x01 0x20 0x00 0xFF 0x8003 [], []) ∧
    (busAccesses ({ loaded 0x8000 [0xBD, 0xF0, 0x12] [(0x1310, 0x01)] with x := 0x20 })).drop 3 = [.read 0x1310 0x01] := by decide

/-- V5 (R99). -/
theorem test_ldaAby_V5 : seenAfter (step ({ loaded 0x8000 [0xB9, 0xF0, 0xFF] [(0x0010, 0x55)] with y := 0x20 })) [] =
    some (registers 0x55 0x00 0x20 0xFF 0x8003 [], []) ∧
    (busAccesses ({ loaded 0x8000 [0xB9, 0xF0, 0xFF] [(0x0010, 0x55)] with y := 0x20 })).drop 3 = [.read 0x0010 0x55] := by decide

/-- V6 (R100). -/
theorem test_ldaIzx_V6 : seenAfter (step ({ loaded 0x8000 [0xA1, 0xFE] [(0x0000, 0x12), (0x00FF, 0x34), (0x0100, 0x56), (0x1234, 0xAB), (0x5634, 0xCD)] with x := 0x01 })) [] =
    some (registers 0xAB 0x01 0x00 0xFF 0x8002 [.n], []) ∧
    (busAccesses ({ loaded 0x8000 [0xA1, 0xFE] [(0x0000, 0x12), (0x00FF, 0x34), (0x0100, 0x56), (0x1234, 0xAB), (0x5634, 0xCD)] with x := 0x01 })).drop 3 = [.read 0x00FF 0x34, .read 0x0000 0x12, .read 0x1234 0xAB] := by decide

/-- V7 (R100). -/
theorem test_ldaIzx_V7 : seenAfter (step ({ loaded 0x8000 [0xA1, 0x20] [(0x0005, 0x00), (0x0006, 0x03), (0x0300, 0x66)] with x := 0xE5 })) [] =
    some (registers 0x66 0xE5 0x00 0xFF 0x8002 [], []) ∧
    (busAccesses ({ loaded 0x8000 [0xA1, 0x20] [(0x0005, 0x00), (0x0006, 0x03), (0x0300, 0x66)] with x := 0xE5 })).drop 3 = [.read 0x0005 0x00, .read 0x0006 0x03, .read 0x0300 0x66] := by decide

/-- V8 (R101). -/
theorem test_ldaIzy_V8 : seenAfter (step ({ loaded 0x8000 [0xB1, 0xFF] [(0x0000, 0x40), (0x00FF, 0x00), (0x0100, 0x50), (0x4010, 0x77), (0x5010, 0x88)] with y := 0x10 })) [] =
    some (registers 0x77 0x00 0x10 0xFF 0x8002 [], []) ∧
    (busAccesses ({ loaded 0x8000 [0xB1, 0xFF] [(0x0000, 0x40), (0x00FF, 0x00), (0x0100, 0x50), (0x4010, 0x77), (0x5010, 0x88)] with y := 0x10 })).drop 3 = [.read 0x00FF 0x00, .read 0x0000 0x40, .read 0x4010 0x77] := by decide

/-- V9 (R101). -/
theorem test_ldaIzy_V9 : seenAfter (step ({ loaded 0x8000 [0xB1, 0x40] [(0x0000, 0x11), (0x0040, 0xFF), (0x0041, 0xFF)] with y := 0x01 })) [] =
    some (registers 0x11 0x00 0x01 0xFF 0x8002 [], []) ∧
    (busAccesses ({ loaded 0x8000 [0xB1, 0x40] [(0x0000, 0x11), (0x0040, 0xFF), (0x0041, 0xFF)] with y := 0x01 })).drop 3 = [.read 0x0040 0xFF, .read 0x0041 0xFF, .read 0x0000 0x11] := by decide

/-- V10 (R102). -/
theorem test_jmpInd_V10 : seenAfter (step (loaded 0x8000 [0x6C, 0x00, 0x10] [(0x1000, 0x00), (0x1001, 0x90)])) [] =
    some (registers 0x00 0x00 0x00 0xFF 0x9000 [], []) ∧
    (busAccesses (loaded 0x8000 [0x6C, 0x00, 0x10] [(0x1000, 0x00), (0x1001, 0x90)])).drop 3 = [.read 0x1000 0x00, .read 0x1001 0x90] := by decide

/-- V11 (R102). -/
theorem test_jmpInd_V11 : seenAfter (step (loaded 0x8000 [0x6C, 0xFF, 0x02] [(0x0200, 0x12), (0x02FF, 0x34), (0x0300, 0x56)])) [] =
    some (registers 0x00 0x00 0x00 0xFF 0x1234 [], []) ∧
    (busAccesses (loaded 0x8000 [0x6C, 0xFF, 0x02] [(0x0200, 0x12), (0x02FF, 0x34), (0x0300, 0x56)])).drop 3 = [.read 0x02FF 0x34, .read 0x0200 0x12] := by decide

/-- V13 (R191). -/
theorem test_bne_V13 : seenAfter (step (loaded 0x8000 [0xD0, 0x7F] [])) [] =
    some (registers 0x00 0x00 0x00 0xFF 0x8081 [], []) := by decide

/-- V14 (R191). -/
theorem test_bne_V14 : seenAfter (step (loaded 0x8000 [0xD0, 0x80] [])) [] =
    some (registers 0x00 0x00 0x00 0xFF 0x7F82 [], []) := by decide

/-- V15 (R191). -/
theorem test_bcc_V15 : seenAfter (step (loaded 0xFFF0 [0x90, 0x20] [])) [] =
    some (registers 0x00 0x00 0x00 0xFF 0x0012 [], []) := by decide

/-- V16 (R191). -/
theorem test_bcc_V16 : seenAfter (step (loaded 0x0000 [0x90, 0xFD] [])) [] =
    some (registers 0x00 0x00 0x00 0xFF 0xFFFF [], []) := by decide

/-- V17 (R95). -/
theorem test_staZpx_V17 : seenAfter (step ({ loaded 0x8000 [0x95, 0x80] [] with a := 0x5A, x := 0x90 })) [0x0010] =
    some (registers 0x5A 0x90 0x00 0xFF 0x8002 [], [0x5A]) ∧
    (busAccesses ({ loaded 0x8000 [0x95, 0x80] [] with a := 0x5A, x := 0x90 })).drop 3 = [.write 0x0010 0x5A] := by decide

/-- V18 (R34). -/
theorem test_ldaAbs_V18 : seenAfter (step (loaded 0xFFFE [0xAD, 0x34, 0x12] [(0x1234, 0x9C)])) [] =
    some (registers 0x9C 0x00 0x00 0xFF 0x0001 [.n], []) ∧
    (busAccesses (loaded 0xFFFE [0xAD, 0x34, 0x12] [(0x1234, 0x9C)])).drop 3 = [.read 0x1234 0x9C] := by decide

/-- V20 (R110). -/
theorem test_ldaImm_V20 : seenAfter (step ({ loaded 0x8000 [0xA9, 0x00] [] with a := 0x55, flagN := true })) [] =
    some (registers 0x00 0x00 0x00 0xFF 0x8002 [.z], []) := by decide

/-- V21 (R110). -/
theorem test_ldaImm_V21 : seenAfter (step ({ loaded 0x8000 [0xA9, 0x80] [] with flagZ := true })) [] =
    some (registers 0x80 0x00 0x00 0xFF 0x8002 [.n], []) := by decide

/-- V22 (R110). -/
theorem test_ldaZp_V22 : seenAfter (step (loaded 0x8000 [0xA5, 0x10] [(0x0010, 0x01)])) [] =
    some (registers 0x01 0x00 0x00 0xFF 0x8002 [], []) ∧
    (busAccesses (loaded 0x8000 [0xA5, 0x10] [(0x0010, 0x01)])).drop 3 = [.read 0x0010 0x01] := by decide

/-- V23 (R111). -/
theorem test_ldxAby_V23 : seenAfter (step ({ loaded 0x8000 [0xBE, 0x00, 0x02] [(0x0205, 0x00)] with y := 0x05 })) [] =
    some (registers 0x00 0x00 0x05 0xFF 0x8003 [.z], []) ∧
    (busAccesses ({ loaded 0x8000 [0xBE, 0x00, 0x02] [(0x0205, 0x00)] with y := 0x05 })).drop 3 = [.read 0x0205 0x00] := by decide

/-- V24 (R112). -/
theorem test_ldyImm_V24 : seenAfter (step ({ loaded 0x8000 [0xA0, 0x7F] [] with flagN := true, flagZ := true })) [] =
    some (registers 0x00 0x00 0x7F 0xFF 0x8002 [], []) := by decide

/-- V25 (R112). -/
theorem test_ldyZpx_V25 : seenAfter (step ({ loaded 0x8000 [0xB4, 0x10] [(0x0011, 0xFE)] with x := 0x01 })) [] =
    some (registers 0x00 0x01 0xFE 0xFF 0x8002 [.n], []) ∧
    (busAccesses ({ loaded 0x8000 [0xB4, 0x10] [(0x0011, 0xFE)] with x := 0x01 })).drop 3 = [.read 0x0011 0xFE] := by decide

/-- V26 (R113). -/
theorem test_staAbs_V26 : seenAfter (step ({ loaded 0x8000 [0x8D, 0x00, 0x02] [] with a := 0x00, flagN := true, flagV := true, flagC := true })) [0x0200] =
    some (registers 0x00 0x00 0x00 0xFF 0x8003 [.n, .v, .c], [0x00]) ∧
    (busAccesses ({ loaded 0x8000 [0x8D, 0x00, 0x02] [] with a := 0x00, flagN := true, flagV := true, flagC := true })).drop 3 = [.write 0x0200 0x00] := by decide

/-- V27 (R113). -/
theorem test_staIzy_V27 : seenAfter (step ({ loaded 0x8000 [0x91, 0x40] [(0x0040, 0x00), (0x0041, 0x03)] with a := 0x77, y := 0x03 })) [0x0303] =
    some (registers 0x77 0x00 0x03 0xFF 0x8002 [], [0x77]) ∧
    (busAccesses ({ loaded 0x8000 [0x91, 0x40] [(0x0040, 0x00), (0x0041, 0x03)] with a := 0x77, y := 0x03 })).drop 3 = [.read 0x0040 0x00, .read 0x0041 0x03, .write 0x0303 0x77] := by decide

/-- V28 (R114). -/
theorem test_stxZpy_V28 : seenAfter (step ({ loaded 0x8000 [0x96, 0xF5] [] with x := 0x21, y := 0x10 })) [0x0005] =
    some (registers 0x00 0x21 0x10 0xFF 0x8002 [], [0x21]) ∧
    (busAccesses ({ loaded 0x8000 [0x96, 0xF5] [] with x := 0x21, y := 0x10 })).drop 3 = [.write 0x0005 0x21] := by decide

/-- V29 (R115). -/
theorem test_styAbs_V29 : seenAfter (step ({ loaded 0x8000 [0x8C, 0x34, 0x12] [] with y := 0x80 })) [0x1234] =
    some (registers 0x00 0x00 0x80 0xFF 0x8003 [], [0x80]) ∧
    (busAccesses ({ loaded 0x8000 [0x8C, 0x34, 0x12] [] with y := 0x80 })).drop 3 = [.write 0x1234 0x80] := by decide

/-- V30 (R134). -/
theorem test_adcImm_V30 : seenAfter (step ({ loaded 0x8000 [0x69, 0x50] [] with a := 0x50 })) [] =
    some (registers 0xA0 0x00 0x00 0xFF 0x8002 [.n, .v], []) := by decide

/-- V31 (R134). -/
theorem test_adcImm_V31 : seenAfter (step ({ loaded 0x8000 [0x69, 0x01] [] with a := 0xFF })) [] =
    some (registers 0x00 0x00 0x00 0xFF 0x8002 [.z, .c], []) := by decide

/-- V37 (R134). -/
theorem test_adcZp_V37 : seenAfter (step ({ loaded 0x8000 [0x65, 0x10] [(0x0010, 0x20)] with a := 0x10 })) [] =
    some (registers 0x30 0x00 0x00 0xFF 0x8002 [], []) ∧
    (busAccesses ({ loaded 0x8000 [0x65, 0x10] [(0x0010, 0x20)] with a := 0x10 })).drop 3 = [.read 0x0010 0x20] := by decide

/-- V38 (R135). -/
theorem test_sbcImm_V38 : seenAfter (step ({ loaded 0x8000 [0xE9, 0xF0] [] with a := 0x50, flagC := true })) [] =
    some (registers 0x60 0x00 0x00 0xFF 0x8002 [], []) := by decide

/-- V39 (R135). -/
theorem test_sbcImm_V39 : seenAfter (step ({ loaded 0x8000 [0xE9, 0xB0] [] with a := 0x50, flagC := true })) [] =
    some (registers 0xA0 0x00 0x00 0xFF 0x8002 [.n, .v], []) := by decide

/-- V44 (R136). -/
theorem test_andImm_V44 : seenAfter (step ({ loaded 0x8000 [0x29, 0x0F] [] with a := 0xF0 })) [] =
    some (registers 0x00 0x00 0x00 0xFF 0x8002 [.z], []) := by decide

/-- V45 (R137). -/
theorem test_oraImm_V45 : seenAfter (step ({ loaded 0x8000 [0x09, 0x80] [] with a := 0x01 })) [] =
    some (registers 0x81 0x00 0x00 0xFF 0x8002 [.n], []) := by decide

/-- V46 (R138). -/
theorem test_eorImm_V46 : seenAfter (step ({ loaded 0x8000 [0x49, 0xFF] [] with a := 0xFF })) [] =
    some (registers 0x00 0x00 0x00 0xFF 0x8002 [.z], []) := by decide

/-- V47 (R138). -/
theorem test_eorImm_V47 : seenAfter (step ({ loaded 0x8000 [0x49, 0x0F] [] with a := 0x3C })) [] =
    some (registers 0x33 0x00 0x00 0xFF 0x8002 [], []) := by decide

/-- V48 (R139). -/
theorem test_cmpImm_V48 : seenAfter (step ({ loaded 0x8000 [0xC9, 0x01] [] with a := 0x80 })) [] =
    some (registers 0x80 0x00 0x00 0xFF 0x8002 [.c], []) := by decide

/-- V49 (R139). -/
theorem test_cmpImm_V49 : seenAfter (step ({ loaded 0x8000 [0xC9, 0xFF] [] with a := 0x01 })) [] =
    some (registers 0x01 0x00 0x00 0xFF 0x8002 [], []) := by decide

/-- V52 (R140). -/
theorem test_cpxImm_V52 : seenAfter (step ({ loaded 0x8000 [0xE0, 0x00] [] with x := 0x00 })) [] =
    some (registers 0x00 0x00 0x00 0xFF 0x8002 [.z, .c], []) := by decide

/-- V53 (R141). -/
theorem test_cpyZp_V53 : seenAfter (step ({ loaded 0x8000 [0xC4, 0x10] [(0x0010, 0x41)] with y := 0x40 })) [] =
    some (registers 0x00 0x00 0x40 0xFF 0x8002 [.n], []) ∧
    (busAccesses ({ loaded 0x8000 [0xC4, 0x10] [(0x0010, 0x41)] with y := 0x40 })).drop 3 = [.read 0x0010 0x41] := by decide

/-- V54 (R142). -/
theorem test_bitZp_V54 : seenAfter (step ({ loaded 0x8000 [0x24, 0x10] [(0x0010, 0xC0)] with a := 0x0F })) [] =
    some (registers 0x0F 0x00 0x00 0xFF 0x8002 [.n, .v, .z], []) ∧
    (busAccesses ({ loaded 0x8000 [0x24, 0x10] [(0x0010, 0xC0)] with a := 0x0F })).drop 3 = [.read 0x0010 0xC0] := by decide

/-- V55 (R142). -/
theorem test_bitAbs_V55 : seenAfter (step ({ loaded 0x8000 [0x2C, 0x34, 0x12] [(0x1234, 0x01)] with a := 0x01, flagN := true, flagV := true })) [] =
    some (registers 0x01 0x00 0x00 0xFF 0x8003 [], []) ∧
    (busAccesses ({ loaded 0x8000 [0x2C, 0x34, 0x12] [(0x1234, 0x01)] with a := 0x01, flagN := true, flagV := true })).drop 3 = [.read 0x1234 0x01] := by decide

/-- V60 (R155). -/
theorem test_lsrAcc_V60 : seenAfter (step ({ loaded 0x8000 [0x4A] [] with a := 0x01 })) [] =
    some (registers 0x00 0x00 0x00 0xFF 0x8001 [.z, .c], []) := by decide

/-- V61 (R156). -/
theorem test_rolAcc_V61 : seenAfter (step ({ loaded 0x8000 [0x2A] [] with a := 0x80, flagC := true })) [] =
    some (registers 0x01 0x00 0x00 0xFF 0x8001 [.c], []) := by decide

/-- V62 (R157). -/
theorem test_rorAcc_V62 : seenAfter (step ({ loaded 0x8000 [0x6A] [] with a := 0x01, flagC := true })) [] =
    some (registers 0x80 0x00 0x00 0xFF 0x8001 [.n, .c], []) := by decide

/-- V63 (R157). -/
theorem test_rorAcc_V63 : seenAfter (step ({ loaded 0x8000 [0x6A] [] with a := 0x00 })) [] =
    some (registers 0x00 0x00 0x00 0xFF 0x8001 [.z], []) := by decide

/-- V64 (R154). -/
theorem test_aslZp_V64 : seenAfter (step (loaded 0x8000 [0x06, 0x10] [(0x0010, 0x40)])) [0x0010] =
    some (registers 0x00 0x00 0x00 0xFF 0x8002 [.n], [0x80]) ∧
    (busAccesses (loaded 0x8000 [0x06, 0x10] [(0x0010, 0x40)])).drop 3 = [.read 0x0010 0x40, .write 0x0010 0x80] := by decide

/-- V65 (R155). -/
theorem test_lsrAbx_V65 : seenAfter (step ({ loaded 0x8000 [0x5E, 0x34, 0x12] [(0x1235, 0x81)] with x := 0x01 })) [0x1235] =
    some (registers 0x00 0x01 0x00 0xFF 0x8003 [.c], [0x40]) ∧
    (busAccesses ({ loaded 0x8000 [0x5E, 0x34, 0x12] [(0x1235, 0x81)] with x := 0x01 })).drop 3 = [.read 0x1235 0x81, .write 0x1235 0x40] := by decide

/-- V66 (R156). -/
theorem test_rolZp_V66 : seenAfter (step (loaded 0x8000 [0x26, 0x10] [(0x0010, 0xFF)])) [0x0010] =
    some (registers 0x00 0x00 0x00 0xFF 0x8002 [.n, .c], [0xFE]) ∧
    (busAccesses (loaded 0x8000 [0x26, 0x10] [(0x0010, 0xFF)])).drop 3 = [.read 0x0010 0xFF, .write 0x0010 0xFE] := by decide

/-- V67 (R158). -/
theorem test_incZp_V67 : seenAfter (step ({ loaded 0x8000 [0xE6, 0x10] [(0x0010, 0xFF)] with flagC := true })) [0x0010] =
    some (registers 0x00 0x00 0x00 0xFF 0x8002 [.z, .c], [0x00]) ∧
    (busAccesses ({ loaded 0x8000 [0xE6, 0x10] [(0x0010, 0xFF)] with flagC := true })).drop 3 = [.read 0x0010 0xFF, .write 0x0010 0x00] := by decide

/-- V68 (R158). -/
theorem test_incZpx_V68 : seenAfter (step ({ loaded 0x8000 [0xF6, 0xFF] [(0x0000, 0x7F)] with x := 0x01 })) [0x0000] =
    some (registers 0x00 0x01 0x00 0xFF 0x8002 [.n], [0x80]) ∧
    (busAccesses ({ loaded 0x8000 [0xF6, 0xFF] [(0x0000, 0x7F)] with x := 0x01 })).drop 3 = [.read 0x0000 0x7F, .write 0x0000 0x80] := by decide

/-- V69 (R159). -/
theorem test_decZp_V69 : seenAfter (step (loaded 0x8000 [0xC6, 0x10] [(0x0010, 0x00)])) [0x0010] =
    some (registers 0x00 0x00 0x00 0xFF 0x8002 [.n], [0xFF]) ∧
    (busAccesses (loaded 0x8000 [0xC6, 0x10] [(0x0010, 0x00)])).drop 3 = [.read 0x0010 0x00, .write 0x0010 0xFF] := by decide

/-- V70 (R160). -/
theorem test_inx_V70 : seenAfter (step ({ loaded 0x8000 [0xE8] [] with x := 0xFF })) [] =
    some (registers 0x00 0x00 0x00 0xFF 0x8001 [.z], []) := by decide

/-- V71 (R161). -/
theorem test_iny_V71 : seenAfter (step ({ loaded 0x8000 [0xC8] [] with y := 0x7F })) [] =
    some (registers 0x00 0x00 0x80 0xFF 0x8001 [.n], []) := by decide

/-- V72 (R162). -/
theorem test_dex_V72 : seenAfter (step ({ loaded 0x8000 [0xCA] [] with x := 0x01 })) [] =
    some (registers 0x00 0x00 0x00 0xFF 0x8001 [.z], []) := by decide

/-- V73 (R163). -/
theorem test_dey_V73 : seenAfter (step ({ loaded 0x8000 [0x88] [] with y := 0x00 })) [] =
    some (registers 0x00 0x00 0xFF 0xFF 0x8001 [.n], []) := by decide

/-- V74 (R154). -/
theorem test_aslAcc_V74 : seenAfter (step ({ loaded 0x8000 [0x0A] [] with a := 0xC0 })) [] =
    some (registers 0x80 0x00 0x00 0xFF 0x8001 [.n, .c], []) := by decide

/-- V80 (R175). -/
theorem test_tax_V80 : seenAfter (step ({ loaded 0x8000 [0xAA] [] with a := 0x80 })) [] =
    some (registers 0x80 0x80 0x00 0xFF 0x8001 [.n], []) := by decide

/-- V81 (R176). -/
theorem test_tay_V81 : seenAfter (step ({ loaded 0x8000 [0xA8] [] with a := 0x00, y := 0x33 })) [] =
    some (registers 0x00 0x00 0x00 0xFF 0x8001 [.z], []) := by decide

/-- V82 (R177). -/
theorem test_txa_V82 : seenAfter (step ({ loaded 0x8000 [0x8A] [] with a := 0xFF, x := 0x01, flagN := true })) [] =
    some (registers 0x01 0x01 0x00 0xFF 0x8001 [], []) := by decide

/-- V83 (R178). -/
theorem test_tya_V83 : seenAfter (step ({ loaded 0x8000 [0x98] [] with y := 0xFF })) [] =
    some (registers 0xFF 0x00 0xFF 0xFF 0x8001 [.n], []) := by decide

/-- V84 (R179). -/
theorem test_tsx_V84 : seenAfter (step (loaded 0x8000 [0xBA] [])) [] =
    some (registers 0x00 0xFF 0x00 0xFF 0x8001 [.n], []) := by decide

/-- V85 (R180). -/
theorem test_txs_V85 : seenAfter (step ({ loaded 0x8000 [0x9A] [] with x := 0x00 })) [] =
    some (registers 0x00 0x00 0x00 0x00 0x8001 [.z], []) := by decide

/-- V86 (R180). -/
theorem test_txs_V86 : seenAfter (stepWith { standardConfig with txsSetsNz := false } ({ loaded 0x8000 [0x9A] [] with x := 0x00 })) [] =
    some (registers 0x00 0x00 0x00 0x00 0x8001 [], []) := by decide

/-- V87 (R181). -/
theorem test_pha_V87 : seenAfter (step ({ loaded 0x8000 [0x48] [] with a := 0x42, sp := 0x00 })) [0x0100] =
    some (registers 0x42 0x00 0x00 0xFF 0x8001 [], [0x42]) ∧
    (busAccesses ({ loaded 0x8000 [0x48] [] with a := 0x42, sp := 0x00 })).drop 3 = [.write 0x0100 0x42] := by decide

/-- V88 (R182). -/
theorem test_pla_V88 : seenAfter (step ({ loaded 0x8000 [0x68] [(0x0100, 0x80)] with sp := 0xFF })) [] =
    some (registers 0x80 0x00 0x00 0x00 0x8001 [.n], []) ∧
    (busAccesses ({ loaded 0x8000 [0x68] [(0x0100, 0x80)] with sp := 0xFF })).drop 3 = [.read 0x0100 0x80] := by decide

/-- V89 (R183). -/
theorem test_php_V89 : seenAfter (step ({ loaded 0x8000 [0x08] [] with flagN := true, flagD := true, flagI := true, flagC := true })) [0x01FF] =
    some (registers 0x00 0x00 0x00 0xFE 0x8001 [.n, .d, .i, .c], [0x85]) ∧
    (busAccesses ({ loaded 0x8000 [0x08] [] with flagN := true, flagD := true, flagI := true, flagC := true })).drop 3 = [.write 0x01FF 0x85] := by decide

/-- V90 (R183). -/
theorem test_php_V90 : seenAfter (step ({ loaded 0x8000 [0x08] [] with flagN := true, flagV := true, flagD := true, flagI := true, flagZ := true, flagC := true })) [0x01FF] =
    some (registers 0x00 0x00 0x00 0xFE 0x8001 [.n, .v, .d, .i, .z, .c], [0xC7]) ∧
    (busAccesses ({ loaded 0x8000 [0x08] [] with flagN := true, flagV := true, flagD := true, flagI := true, flagZ := true, flagC := true })).drop 3 = [.write 0x01FF 0xC7] := by decide

/-- V91 (R184). -/
theorem test_plp_V91 : seenAfter (step ({ loaded 0x8000 [0x28] [(0x01FF, 0x38)] with sp := 0xFE, flagN := true, flagV := true, flagD := true, flagI := true, flagZ := true, flagC := true })) [] =
    some (registers 0x00 0x00 0x00 0xFF 0x8001 [.d], []) ∧
    (busAccesses ({ loaded 0x8000 [0x28] [(0x01FF, 0x38)] with sp := 0xFE, flagN := true, flagV := true, flagD := true, flagI := true, flagZ := true, flagC := true })).drop 3 = [.read 0x01FF 0x38] := by decide

/-- V92 (R184). -/
theorem test_plp_V92 : seenAfter (step ({ loaded 0x8000 [0x28] [(0x01FF, 0xFF)] with sp := 0xFE })) [] =
    some (registers 0x00 0x00 0x00 0xFF 0x8001 [.n, .v, .i, .z, .c], []) ∧
    (busAccesses ({ loaded 0x8000 [0x28] [(0x01FF, 0xFF)] with sp := 0xFE })).drop 3 = [.read 0x01FF 0xFF] := by decide

/-- V100 (R192). -/
theorem test_bpl_V100 : seenAfter (step (loaded 0x8000 [0x10, 0x10] [])) [] =
    some (registers 0x00 0x00 0x00 0xFF 0x8012 [], []) := by decide

/-- V101 (R192). -/
theorem test_bpl_V101 : seenAfter (step ({ loaded 0x8000 [0x10, 0x10] [] with flagN := true })) [] =
    some (registers 0x00 0x00 0x00 0xFF 0x8002 [.n], []) := by decide

/-- V102 (R193). -/
theorem test_bmi_V102 : seenAfter (step (loaded 0x8000 [0x30, 0x10] [])) [] =
    some (registers 0x00 0x00 0x00 0xFF 0x8002 [], []) := by decide

/-- V103 (R193). -/
theorem test_bmi_V103 : seenAfter (step ({ loaded 0x8000 [0x30, 0x10] [] with flagN := true })) [] =
    some (registers 0x00 0x00 0x00 0xFF 0x8012 [.n], []) := by decide

/-- V104 (R194). -/
theorem test_bvc_V104 : seenAfter (step (loaded 0x8000 [0x50, 0x10] [])) [] =
    some (registers 0x00 0x00 0x00 0xFF 0x8012 [], []) := by decide

/-- V105 (R194). -/
theorem test_bvc_V105 : seenAfter (step ({ loaded 0x8000 [0x50, 0x10] [] with flagV := true })) [] =
    some (registers 0x00 0x00 0x00 0xFF 0x8002 [.v], []) := by decide

/-- V106 (R195). -/
theorem test_bvs_V106 : seenAfter (step (loaded 0x8000 [0x70, 0x10] [])) [] =
    some (registers 0x00 0x00 0x00 0xFF 0x8002 [], []) := by decide

/-- V107 (R195). -/
theorem test_bvs_V107 : seenAfter (step ({ loaded 0x8000 [0x70, 0x10] [] with flagV := true })) [] =
    some (registers 0x00 0x00 0x00 0xFF 0x8012 [.v], []) := by decide

/-- V110 (R197). -/
theorem test_bcs_V110 : seenAfter (step (loaded 0x8000 [0xB0, 0x10] [])) [] =
    some (registers 0x00 0x00 0x00 0xFF 0x8002 [], []) := by decide

/-- V111 (R197). -/
theorem test_bcs_V111 : seenAfter (step ({ loaded 0x8000 [0xB0, 0x10] [] with flagC := true })) [] =
    some (registers 0x00 0x00 0x00 0xFF 0x8012 [.c], []) := by decide

/-- V114 (R199). -/
theorem test_beq_V114 : seenAfter (step (loaded 0x8000 [0xF0, 0x10] [])) [] =
    some (registers 0x00 0x00 0x00 0xFF 0x8002 [], []) := by decide

/-- V115 (R199). -/
theorem test_beq_V115 : seenAfter (step ({ loaded 0x8000 [0xF0, 0x10] [] with flagZ := true })) [] =
    some (registers 0x00 0x00 0x00 0xFF 0x8012 [.z], []) := by decide

/-- V116 (R200). -/
theorem test_jmpAbs_V116 : seenAfter (step (loaded 0x8000 [0x4C, 0x00, 0x90] [])) [] =
    some (registers 0x00 0x00 0x00 0xFF 0x9000 [], []) := by decide

/-- V117 (R201). -/
theorem test_jsr_V117 : seenAfter (step (loaded 0x01FD [0x20, 0x00, 0x90] [])) [0x01FF, 0x01FE] =
    some (registers 0x00 0x00 0x00 0xFD 0x9000 [], [0x01, 0xFF]) ∧
    (busAccesses (loaded 0x01FD [0x20, 0x00, 0x90] [])).drop 3 = [.write 0x01FF 0x01, .write 0x01FE 0xFF] := by decide

/-- V118 (R201). -/
theorem test_jsr_V118 : seenAfter (step (loaded 0xFFFE [0x20, 0x00, 0x90] [])) [0x01FF, 0x01FE] =
    some (registers 0x00 0x00 0x00 0xFD 0x9000 [], [0x00, 0x00]) ∧
    (busAccesses (loaded 0xFFFE [0x20, 0x00, 0x90] [])).drop 3 = [.write 0x01FF 0x00, .write 0x01FE 0x00] := by decide

/-- V119 (R202). -/
theorem test_rts_V119 : seenAfter (step ({ loaded 0x8000 [0x60] [(0x01FE, 0xFF), (0x01FF, 0xFF)] with sp := 0xFD })) [] =
    some (registers 0x00 0x00 0x00 0xFF 0x0000 [], []) ∧
    (busAccesses ({ loaded 0x8000 [0x60] [(0x01FE, 0xFF), (0x01FF, 0xFF)] with sp := 0xFD })).drop 3 = [.read 0x01FE 0xFF, .read 0x01FF 0xFF] := by decide

/-- V120 (R203). -/
theorem test_brk_V120 : seenAfter (step ({ loaded 0x8000 [0x00] [(0xFFFE, 0x00), (0xFFFF, 0x90)] with flagN := true, flagC := true })) [0x01FF, 0x01FE, 0x01FD] =
    some (registers 0x00 0x00 0x00 0xFC 0x9000 [.n, .i, .c], [0x80, 0x02, 0x81]) ∧
    (busAccesses ({ loaded 0x8000 [0x00] [(0xFFFE, 0x00), (0xFFFF, 0x90)] with flagN := true, flagC := true })).drop 3 = [.write 0x01FF 0x80, .write 0x01FE 0x02, .write 0x01FD 0x81, .read 0xFFFE 0x00, .read 0xFFFF 0x90] := by decide

/-- V121 (R203). -/
theorem test_brk_V121 : seenAfter (step ({ loaded 0x8000 [0x00] [(0xFFFE, 0x00), (0xFFFF, 0x90)] with sp := 0x01 })) [0x0101, 0x0100, 0x01FF] =
    some (registers 0x00 0x00 0x00 0xFE 0x9000 [.i], [0x80, 0x02, 0x00]) ∧
    (busAccesses ({ loaded 0x8000 [0x00] [(0xFFFE, 0x00), (0xFFFF, 0x90)] with sp := 0x01 })).drop 3 = [.write 0x0101 0x80, .write 0x0100 0x02, .write 0x01FF 0x00, .read 0xFFFE 0x00, .read 0xFFFF 0x90] := by decide

/-- V122 (R204). -/
theorem test_rti_V122 : seenAfter (step ({ loaded 0x8000 [0x40] [(0x01FD, 0xC3), (0x01FE, 0x02), (0x01FF, 0x80)] with sp := 0xFC, flagI := true })) [] =
    some (registers 0x00 0x00 0x00 0xFF 0x8002 [.n, .v, .z, .c], []) ∧
    (busAccesses ({ loaded 0x8000 [0x40] [(0x01FD, 0xC3), (0x01FE, 0x02), (0x01FF, 0x80)] with sp := 0xFC, flagI := true })).drop 3 = [.read 0x01FD 0xC3, .read 0x01FE 0x02, .read 0x01FF 0x80] := by decide

/-- V130 (R210). -/
theorem test_clc_V130 : seenAfter (step ({ loaded 0x8000 [0x18] [] with flagC := true })) [] =
    some (registers 0x00 0x00 0x00 0xFF 0x8001 [], []) := by decide

/-- V131 (R211). -/
theorem test_sec_V131 : seenAfter (step (loaded 0x8000 [0x38] [])) [] =
    some (registers 0x00 0x00 0x00 0xFF 0x8001 [.c], []) := by decide

/-- V132 (R212). -/
theorem test_cli_V132 : seenAfter (step ({ loaded 0x8000 [0x58] [] with flagI := true })) [] =
    some (registers 0x00 0x00 0x00 0xFF 0x8001 [], []) := by decide

/-- V133 (R213). -/
theorem test_sei_V133 : seenAfter (step (loaded 0x8000 [0x78] [])) [] =
    some (registers 0x00 0x00 0x00 0xFF 0x8001 [.i], []) := by decide

/-- V134 (R214). -/
theorem test_clv_V134 : seenAfter (step ({ loaded 0x8000 [0xB8] [] with flagV := true })) [] =
    some (registers 0x00 0x00 0x00 0xFF 0x8001 [], []) := by decide

/-- V135 (R215). -/
theorem test_cld_V135 : seenAfter (step ({ loaded 0x8000 [0xD8] [] with flagD := true })) [] =
    some (registers 0x00 0x00 0x00 0xFF 0x8001 [], []) := by decide

/-- V136 (R216). -/
theorem test_sed_V136 : seenAfter (step (loaded 0x8000 [0xF8] [])) [] =
    some (registers 0x00 0x00 0x00 0xFF 0x8001 [.d], []) := by decide

/-- V137 (R217). -/
theorem test_nop_V137 : seenAfter (step ({ loaded 0x8000 [0xEA] [] with a := 0x12, flagN := true })) [] =
    some (registers 0x12 0x00 0x00 0xFF 0x8001 [.n], []) := by decide

/-- V140 (R231). -/
theorem test_unrecognized_V140 : seenAfter (step (loaded 0x8000 [0x02] [])) [] =
    some (registers 0x00 0x00 0x00 0xFF 0x8000 [], []) ∧
    haltRecord (step (loaded 0x8000 [0x02] [])) = some { pc := 0x8000, opcode := 0x02 } := by decide

/-- V141 (R231). -/
theorem test_unrecognized_V141 : seenAfter (step (loaded 0xFFFF [0xFF] [])) [] =
    some (registers 0x00 0x00 0x00 0xFF 0xFFFF [], []) ∧
    haltRecord (step (loaded 0xFFFF [0xFF] [])) = some { pc := 0xFFFF, opcode := 0xFF } := by decide

/-- V142 (R231). -/
theorem test_unrecognized_V142 : seenAfter (step ({ loaded 0x8000 [0x80, 0x01] [] with a := 0x33 })) [] =
    some (registers 0x33 0x00 0x00 0xFF 0x8000 [], []) ∧
    haltRecord (step ({ loaded 0x8000 [0x80, 0x01] [] with a := 0x33 })) = some { pc := 0x8000, opcode := 0x80 } := by decide

/-! The check of WellFormed: the opcode byte must be in `RECOGNIZED_SET` (R76). -/

/-- A core that also leaves BRK's byte out of its recognized set. -/
def noBreak : Config := { standardConfig with recognizedSet := officialSet.erase 0x00 }

/-- R76: the check refuses an instruction whose opcode byte is outside the set. -/
theorem test_wellFormed_refuses : ¬ Instr.brk.WellFormed noBreak := by decide

/-- R77: with the default set the same instruction passes, and so does one with an operand at its largest value. -/
theorem test_wellFormed_accepts : Instr.brk.WellFormed standardConfig ∧ (Instr.adcAbs 0xFFFF).WellFormed standardConfig := by
  decide

/-- R76: under such a set the byte is unrecognized. -/
theorem test_decodeIn_refuses : decodeIn noBreak.recognizedSet 0x00 0x00 0x00 = .unrecognized 0x00 := by decide

/-! Decoding: words written out from 30_encoding.md R75, low operand byte first, at least one for each family. -/

/-- Loads and stores: LDA #, LDX zp,Y, STA (zp),Y, STY abs. -/
theorem test_decode_loadStore : decode [0b10101001, 0x05] = .ok (.ldaImm 0x05, []) ∧
    decode [0b10110110, 0x80] = .ok (.ldxZpy 0x80, []) ∧ decode [0b10010001, 0x10] = .ok (.staIzy 0x10, []) ∧
    decode [0b10001100, 0x34, 0x12] = .ok (.styAbs 0x1234, []) := by decide

/-- Arithmetic, logic, compares: ADC (zp,X), SBC abs,Y, AND zp, ORA abs,X, EOR #, CMP zp,X, CPX abs, CPY #, BIT abs. -/
theorem test_decode_alu : decode [0b01100001, 0x20] = .ok (.adcIzx 0x20, []) ∧
    decode [0b11111001, 0xCD, 0xAB] = .ok (.sbcAby 0xABCD, []) ∧ decode [0b00100101, 0x42] = .ok (.andZp 0x42, []) ∧
    decode [0b00011101, 0xFF, 0x00] = .ok (.oraAbx 0x00FF, []) ∧ decode [0b01001001, 0xFF] = .ok (.eorImm 0xFF, []) ∧
    decode [0b11010101, 0x01] = .ok (.cmpZpx 0x01, []) ∧ decode [0b11101100, 0x00, 0x80] = .ok (.cpxAbs 0x8000, []) ∧
    decode [0b11000000, 0x7F] = .ok (.cpyImm 0x7F, []) ∧ decode [0b00101100, 0x02, 0x20] = .ok (.bitAbs 0x2002, []) := by
  decide

/-- Shifts, rotates, increments, decrements: ASL A, LSR abs, ROL zp,X, ROR A, INC zp, DEC abs,X, INX, DEY. -/
theorem test_decode_shiftIncDec : decode [0b00001010] = .ok (.aslAcc, []) ∧
    decode [0b01001110, 0x00, 0x03] = .ok (.lsrAbs 0x0300, []) ∧ decode [0b00110110, 0x44] = .ok (.rolZpx 0x44, []) ∧
    decode [0b01101010] = .ok (.rorAcc, []) ∧ decode [0b11100110, 0x33] = .ok (.incZp 0x33, []) ∧
    decode [0b11011110, 0x34, 0x12] = .ok (.decAbx 0x1234, []) ∧ decode [0b11101000] = .ok (.inx, []) ∧
    decode [0b10001000] = .ok (.dey, []) := by decide

/-- Transfers and the stack: TAX, TSX, TXS, PHA, PLP. -/
theorem test_decode_transferStack : decode [0b10101010] = .ok (.tax, []) ∧ decode [0b10111010] = .ok (.tsx, []) ∧
    decode [0b10011010] = .ok (.txs, []) ∧ decode [0b01001000] = .ok (.pha, []) ∧ decode [0b00101000] = .ok (.plp, []) := by
  decide

/-- Control flow: BEQ, BVS, JMP abs, JMP (ind), JSR, RTS, BRK, RTI. -/
theorem test_decode_control : decode [0b11110000, 0xFE] = .ok (.beq 0xFE, []) ∧
    decode [0b01110000, 0x7F] = .ok (.bvs 0x7F, []) ∧ decode [0b01001100, 0x00, 0xC0] = .ok (.jmpAbs 0xC000, []) ∧
    decode [0b01101100, 0xFF, 0x02] = .ok (.jmpInd 0x02FF, []) ∧ decode [0b00100000, 0x34, 0x12] = .ok (.jsr 0x1234, []) ∧
    decode [0b01100000] = .ok (.rts, []) ∧ decode [0b00000000] = .ok (.brk, []) ∧ decode [0b01000000] = .ok (.rti, []) := by
  decide

/-- The flag instructions and NOP: CLC, SED, CLV, NOP. -/
theorem test_decode_flagsMisc : decode [0b00011000] = .ok (.clc, []) ∧ decode [0b11111000] = .ok (.sed, []) ∧ decode [0b10111000] = .ok (.clv, []) ∧ decode [0b11101010] = .ok (.nop, []) := by decide

/-- R75: every row of the spec's table of modes per mnemonic, with the operand bytes 0x34 and 0x12. -/
theorem test_decode_every_row : ∀ row ∈ Claims.modesPerMnemonic, ∀ e ∈ row.2,
    ((decodeTable e.2 0x34 0x12).map fun i => (i.mnemonic, i.mode.name, i.length, encode i)) =
      some (row.1, e.1, Claims.formatLength e.1, [e.2, 0x34, 0x12].take (Claims.formatLength e.1)) := by
  decide +kernel

/-- R70, R73: the operand bytes of an encoded word stand low byte first. -/
theorem test_encode : encode (.jsr 0x1234) = [0x20, 0x34, 0x12] ∧ encode (.ldaImm 0x05) = [0xA9, 0x05] ∧
    encode .nop = [0xEA] := by decide

/-- R76: bytes outside the table are rejected by name, and so is a list that ends too early. -/
theorem test_decode_rejects : decode [0x02] = .error (.unrecognizedOpcode 0x02) ∧
    decode [0xFF, 0x00] = .error (.unrecognizedOpcode 0xFF) ∧ decode [0xAD, 0x00] = .error .truncated ∧
    decode [] = .error .truncated := by decide

/-- The opcode table's numbering: the second byte is bits 15 to 8. -/
theorem test_decodeTableWord : decodeTableWord 24 0x123420 = some (.jsr 0x1234) ∧ decodeTableWord 8 0xEA = some .nop ∧
    decodeTableWord 8 0xA9 = some (.ldaImm 0x00) ∧ decodeTableWord 8 0x02 = none := by decide

/-- The very next step runs the placed instruction, even after a halt. -/
theorem test_withFetchWord : seenAfter (step ({ State.reset with halted := true }.withFetchWord 16 0x05A9)) [0x0202, 0x0203] =
    some (registers 0x05 0x00 0x00 0xFF 0x0204 [], [0xA9, 0x05]) := by decide

/-- R36, R262: reset with the vector 0x8000 at 0xFFFC: SP 0xFF, PC 0x8000, all else 0. -/
theorem test_reset_vector : seenAfter (act .reset { loaded 0x0200 [0xEA] [(0xFFFD, 0x80), (0xFFFC, 0x00)] with
      a := 1, x := 2, y := 3, sp := 4, flagN := true, flagD := true, halted := true }) [0x0200] =
    some (registers 0x00 0x00 0x00 0xFF 0x8000 [], [0xEA]) := by decide

/-- R234: a core that is already halted has no step. -/
theorem test_halted_has_no_step : step { State.reset with halted := true } = .fault (.halted none) := rfl

/-! For each obligation with hypotheses, a concrete state and operands that meet them, clause by clause. -/

/-- A running state about to run LDA #5. -/
def running : State := loaded 0x0200 [0xA9, 0x05] []

/-- A running state about to meet the unrecognized byte 0xFF at the top of the address space. -/
def atUnrecognized : State := loaded 0xFFFF [0xFF] []

/-- The state it halts in. -/
def haltedState : State := raiseUnrecognized 0xFF atUnrecognized

theorem witness_EncodeInvertsDecode : decode [0xAD, 0xFF, 0xFF, 0x00] = .ok (.ldaAbs 0xFFFF, [0x00]) := by decide

theorem witness_OtherBytesUnrecognized : decodeBytes 0xFF 0x00 0x00 = .unrecognized 0xFF ∧
    0xFF ∈ Claims.unrecognizedBytes ∧ 0xFE ∉ Claims.unrecognizedBytes := by decide

theorem witness_StepFetchesDecodesAndRuns_recognized : running.halted = false ∧
    decodeBytes (running.mem.read running.pc) (running.mem.read (running.pc + 1)) (running.mem.read (running.pc + 2)) =
      .recognized (.ldaImm 0x05) := by decide

/-- Also for `RecognizedInstructionsComplete`, which has no hypothesis, and for `UnrecognizedOpcodeHalts`. -/
theorem witness_StepFetchesDecodesAndRuns_unrecognized : atUnrecognized.halted = false ∧
    decodeBytes (atUnrecognized.mem.read atUnrecognized.pc) (atUnrecognized.mem.read (atUnrecognized.pc + 1))
      (atUnrecognized.mem.read (atUnrecognized.pc + 2)) = .unrecognized 0xFF := by decide

theorem witness_UnrecognizedOpcodeHalts : atUnrecognized.halted = false ∧
    atUnrecognized.mem.read atUnrecognized.pc ∈ Claims.unrecognizedBytes := by decide

/-- Also for the third clause of `StepFetchesDecodesAndRuns`. -/
theorem witness_HaltedIsTerminal : haltedState.halted = true := by decide

theorem witness_OnlyResetLeavesHalted : haltedState.halted = true ∧ HostAction.reset ∉ [.step, .write 0xFFFF 0xEA, .step] := by
  decide

theorem witness_StepKeepsInvariant_runs : Safety.Inv running ∧ ∃ t, step running = .next t :=
  ⟨⟨by decide, rfl⟩, _, rfl⟩

theorem witness_StepKeepsInvariant_halts : Safety.Inv atUnrecognized ∧ step atUnrecognized = .next haltedState :=
  ⟨⟨by decide, rfl⟩, rfl⟩

/-- A session through a halt: a step request on the halted core, and then a reset. -/
theorem witness_HostRunsKeepInvariant : (busOf [(0xFFFC, 0x00), (0xFFFD, 0x03)]).wf = true ∧
    ∃ t, actAll [.write 0x0300 0xA9, .step, .reset, .step, .write 0xFFFF 0x00]
      (State.resetWith (busOf [(0xFFFC, 0x00), (0xFFFD, 0x03)])) = .next t := ⟨by decide, _, rfl⟩

theorem witness_ResetHasInvariant : (busOf [(0x0000, 0x00), (0xFFFF, 0xFF)]).wf = true := by decide

theorem witness_ZeroPageModesWrap : (Instr.stxZpy 0xFF).mode.name = .zpy ∧ (Instr.ldxZpy 0x00).mode.name = .zpy := by decide

theorem witness_JmpIndirectPageWrap : (Instr.jmpInd 0xFFFF).mode.name = .ind := by decide

theorem witness_LoadsWriteTheirRegister : (Instr.ldaIzy 0xFF).mnemonic = .lda ∧ (Instr.ldxZpy 0xFF).mnemonic = .ldx ∧
    (Instr.ldyAbx 0xFFFF).mnemonic = .ldy := by decide

theorem witness_StoresWriteOneCell : (Instr.staIzx 0xFF).mnemonic = .sta ∧ (Instr.stxAbs 0xFFFF).mnemonic = .stx ∧
    (Instr.styZpx 0x00).mnemonic = .sty := by decide

theorem witness_AdcAddsWithCarry : (Instr.adcImm 0xFF).mnemonic = .adc ∧ (Instr.sbcImm 0x00).mnemonic = .sbc := by decide

theorem witness_SbcSubtractsWithBorrow : (Instr.sbcAby 0xFFFF).mnemonic = .sbc := by decide

theorem witness_LogicalInstructions : (Instr.andImm 0x00).mnemonic = .and ∧ (Instr.oraIzx 0xFF).mnemonic = .ora ∧
    (Instr.eorAbx 0xFFFF).mnemonic = .eor := by decide

theorem witness_ComparesSetCarryZeroSign : (Instr.cmpIzy 0xFF).mnemonic = .cmp ∧ (Instr.cpxAbs 0xFFFF).mnemonic = .cpx ∧
    (Instr.cpyImm 0x00).mnemonic = .cpy := by decide

theorem witness_BitTestsMemory : (Instr.bitAbs 0xFFFF).mnemonic = .bit ∧ (Instr.bitZp 0x00).mnemonic = .bit := by decide

theorem witness_ShiftsMoveOneBitOut : Instr.aslAcc.mnemonic = .asl ∧ (Instr.aslAbx 0xFFFF).mnemonic = .asl ∧
    Instr.lsrAcc.mnemonic = .lsr ∧ (Instr.lsrZp 0x00).mnemonic = .lsr := by decide

theorem witness_RotatesGoThroughCarry : Instr.rolAcc.mnemonic = .rol ∧ (Instr.rolZpx 0xFF).mnemonic = .rol ∧
    Instr.rorAcc.mnemonic = .ror ∧ (Instr.rorAbs 0xFFFF).mnemonic = .ror := by decide

theorem witness_IncDecRewriteOneCell : (Instr.incAbx 0xFFFF).mnemonic = .inc ∧ (Instr.decZp 0x00).mnemonic = .dec := by decide

/-- For both branch statements, whose clauses split on a flag. -/
theorem witness_BranchesFollowTheirFlag : running.flagZ = false ∧ { running with flagZ := true }.flagZ = true := by decide

/-- A cell outside the three that BRK pushes, with SP at its lowest value. -/
theorem witness_BrkEntersThroughVector : let s := { running with sp := 0x00 }
    (0x0000 : Addr) ≠ 0x0100 + s.sp.setWidth 16 ∧ (0x0000 : Addr) ≠ 0x0100 + (s.sp - 1).setWidth 16 ∧
      (0x0000 : Addr) ≠ 0x0100 + (s.sp - 2).setWidth 16 := by decide

theorem witness_StackIsLastInFirstOut : ([] : List Byte).length ≤ 256 ∧ (List.replicate 256 (0xFF : Byte)).length = 256 :=
  ⟨by decide, List.length_replicate⟩

/-- The flag and register clauses: an instruction that changes each of the flags and registers. -/
theorem witness_FlagsWrittenOnlyAsListed : ∃ t, exec .plp { running with sp := 0xFF, mem := busOf [(0x0100, 0xC7)] } = .next t ∧
    t.flagC ≠ running.flagC ∧ t.flagZ ≠ running.flagZ ∧ t.flagN ≠ running.flagN ∧ t.flagV ≠ running.flagV ∧
    t.flagI ≠ running.flagI := ⟨_, rfl, by decide⟩

theorem witness_FlagsWrittenOnlyAsListed_decimal : ∃ t, exec .sed running = .next t ∧ t.flagD ≠ running.flagD :=
  ⟨_, rfl, by decide⟩

theorem witness_RegistersWrittenOnlyAsListed : (∃ t, exec (.ldaImm 0xFF) running = .next t ∧ t.a ≠ running.a) ∧
    (∃ t, exec .aslAcc { running with a := 0x80 } = .next t ∧ t.a ≠ 0x80) ∧
    (∃ t, exec .dex running = .next t ∧ t.x ≠ running.x) ∧ (∃ t, exec .iny running = .next t ∧ t.y ≠ running.y) ∧
    ∃ t, exec .pha running = .next t ∧ t.sp ≠ running.sp :=
  ⟨⟨_, rfl, by decide⟩, ⟨_, rfl, by decide⟩, ⟨_, rfl, by decide⟩, ⟨_, rfl, by decide⟩, _, rfl, by decide⟩

theorem witness_OnlyStoredBytesChange : ∃ t, exec (.staAbx 0xFFFF) { running with x := 0x01 } = .next t ∧
    (0x0001 : Addr) ∉ Claims.storedAddresses (.staAbx 0xFFFF) { running with x := 0x01 } ∧
    (0x0000 : Addr) ∈ Claims.storedAddresses (.staAbx 0xFFFF) { running with x := 0x01 } := ⟨_, rfl, by decide, by decide⟩

/-- Also for the second part of `BusTraceExplainsMemory`: one hypothesis, that a step answers a next state. -/
theorem witness_DecimalFlagHasNoEffect : ∃ t, step running = .next t := ⟨_, rfl⟩

theorem witness_InterruptDisableMasksNothing_pushes : (∃ t, exec .php running = .next t) ∧ (∃ t, exec .brk running = .next t) ∧
    Instr.php.mnemonic = .php ∧ Instr.brk.mnemonic = .brk := ⟨⟨_, rfl⟩, ⟨_, rfl⟩, rfl, rfl⟩

theorem witness_InterruptDisableMasksNothing : ∃ t, exec .rti running = .next t ∧ Instr.rti.mnemonic ≠ .php ∧
    Instr.rti.mnemonic ≠ .brk := ⟨_, rfl, by decide, by decide⟩

/-- A store, and another bus that differs in a cell the step never reads. -/
def storing : State := loaded 0x0200 [0x85, 0x10] []

theorem witness_OnlyAccessedCellsMatter : (∃ t, step storing = .next t) ∧
    (∀ a v, .read a v ∈ busAccesses storing → (storing.mem.write 0x0300 0x77).read a = storing.mem.read a) ∧
    .write 0x0010 0x00 ∈ busAccesses storing := by
  refine ⟨⟨_, rfl⟩, fun a v h => ?_, by decide⟩
  have h' : busAccesses storing = [.read 0x0200 0x85, .read 0x0201 0x10, .read 0x0202 0x02, .write 0x0010 0x00] := by decide
  rw [h'] at h
  simp only [List.mem_cons, BusAccess.read.injEq, reduceCtorEq, List.not_mem_nil, or_false] at h
  rcases h with ⟨rfl, rfl⟩ | ⟨rfl, rfl⟩ | ⟨rfl, rfl⟩ <;> decide

theorem witness_EqualBusesAreEqualLists : (busOf [(0x0000, 0x00), (0xFFFF, 0xFF)]).wf = true ∧
    (busOf [(0xFFFF, 0xFF), (0x0001, 0x02), (0x0000, 0x00)]).wf = true ∧
    busOf [(0x0000, 0x00), (0xFFFF, 0xFF)] = busOf [(0xFFFF, 0xFF), (0x0001, 0x02), (0x0000, 0x00)] := by decide

/-- A byte left out of the set. -/
theorem witness_RecognizedSetDecidesHalting_outside : let s := loaded 0x0200 [0x00] []
    s.halted = false ∧ noBreak.recognizedSet.contains (fetch s noBreak.bus).op = false := by decide

/-- A byte with no row, put into the set. -/
theorem witness_RecognizedSetDecidesHalting_noRow : let c := { standardConfig with recognizedSet := [0xFF] }
    atUnrecognized.halted = false ∧ c.recognizedSet.contains (fetch atUnrecognized c.bus).op = true ∧
    (fetch atUnrecognized c.bus).op ∈ Claims.unrecognizedBytes := by decide

theorem witness_RecognizedSetDecidesHalting_inside : running.halted = false ∧
    noBreak.recognizedSet.contains (fetch running noBreak.bus).op = true ∧
    decodeBytes (fetch running noBreak.bus).op (fetch running noBreak.bus).arg1 (fetch running noBreak.bus).arg2 =
      .recognized (.ldaImm 0x05) := by decide

/-- Each instruction that stores, at an address where it stores to the cell that is fetched next: by a store, a
read-modify-write or a push. -/
def storers : List (Byte × Instr) :=
  [(0x85, .staZp 0x12), (0x86, .stxZp 0x12), (0x84, .styZp 0x12), (0x06, .aslZp 0x12), (0x46, .lsrZp 0x12),
   (0x26, .rolZp 0x12), (0x66, .rorZp 0x12), (0xE6, .incZp 0x12), (0xC6, .decZp 0x12)]

theorem witness_StepSeesTheLatestWrite_cells : ∀ p ∈ storers, let s := loaded 0x0010 [p.1, 0x12] []
    s.halted = false ∧
    decodeBytes (s.mem.read s.pc) (s.mem.read (s.pc + 1)) (s.mem.read (s.pc + 2)) = .recognized p.2 ∧
    (Claims.storedBytes p.2 s).map Prod.fst = [s.pc + 2] ∧ p.2.mnemonic ∉ Claims.pcWriters := by decide

theorem witness_StepSeesTheLatestWrite_pushes : ∀ p ∈ [(0x48, Instr.pha), (0x08, .php)],
    let s := { loaded 0x0110 [p.1] [] with sp := 0x11 }
    s.halted = false ∧
    decodeBytes (s.mem.read s.pc) (s.mem.read (s.pc + 1)) (s.mem.read (s.pc + 2)) = .recognized p.2 ∧
    (Claims.storedBytes p.2 s).map Prod.fst = [s.pc + 1] := by decide

/-- JSR onto its own return address, and BRK with its vector at the status byte it pushes. -/
theorem witness_StepSeesTheLatestWrite_calls :
    ∀ p ∈ [([0x20, 0xFE, 0x01], Instr.jsr 0x01FE), ([0x00, 0x00, 0x00], .brk)],
    let s := loaded 0x0200 p.1 [(0xFFFE, 0xFD), (0xFFFF, 0x01)]
    s.halted = false ∧
    decodeBytes (s.mem.read s.pc) (s.mem.read (s.pc + 1)) (s.mem.read (s.pc + 2)) = .recognized p.2 ∧
    0x01FE ∈ (Claims.storedBytes p.2 s).map Prod.fst := by decide

/-! Another bus: one that mirrors the cells below 0x2000 every 0x0800 bytes and has a register at 0x2002 whose read clears
it. It shows what the parameter `BUS` can say (20_memory.md R52, R58). -/

/-- The cell an address stands for on that bus. -/
def mirrored (a : Addr) : Addr := if a.toNat < 0x2000 then a &&& 0x07FF else a

def mirrorBus : Bus where
  read m a := m.read (mirrored a)
  afterRead m a := if a = 0x2002 then m.write a 0x00 else m
  write m a v := m.write (mirrored a) v

/-- The default parameters on that bus. -/
def onMirrors : Config := { standardConfig with bus := mirrorBus }

/-- R51: a store shows at every mirror of its cell. -/
theorem test_bus_mirror : seenAfter (stepWith onMirrors { loaded 0x0200 [0x8D, 0x10, 0x08] [] with a := 0x77 }) [0x0010, 0x0810] =
    some (registers 0x77 0x00 0x00 0xFF 0x0203 [], [0x77, 0x02]) := by decide

/-- R58: the load answers the register's byte, and the read clears it. -/
theorem test_bus_read_effect : seenAfter (stepWith onMirrors (loaded 0x0200 [0xAD, 0x02, 0x20] [(0x2002, 0x85)])) [0x2002] =
    some (registers 0x85 0x00 0x00 0xFF 0x0203 [.n], [0x00]) ∧
    (busAccesses (loaded 0x0200 [0xAD, 0x02, 0x20] [(0x2002, 0x85)]) onMirrors).drop 3 = [.read 0x2002 0x85] := by decide

/-- R56, R203: under another BRK_VECTOR the two vector reads are at it. -/
theorem test_accesses_other_vector : (busAccesses (loaded 0x0200 [0x00] [(0x1000, 0x34), (0x1001, 0x12)])
      { standardConfig with brkVector := 0x1000 }).drop 3 =
    [.write 0x01FF 0x02, .write 0x01FE 0x02, .write 0x01FD 0x00, .read 0x1000 0x34, .read 0x1001 0x12] := by decide

/-- R76: under a smaller RECOGNIZED_SET the step makes the fetch reads alone. -/
theorem test_accesses_other_set : busAccesses (loaded 0x0200 [0x00, 0x01, 0x03] []) noBreak =
    [.read 0x0200 0x00, .read 0x0201 0x01, .read 0x0202 0x03] := by decide

theorem witness_BusTraceExplainsMemory : ∃ t, stepWith onMirrors storing = .next t := ⟨_, rfl⟩

theorem witness_CoreSeesOnlyItsAccesses : (∃ t, stepWith standardConfig storing = .next t) ∧
    busAccesses { storing with mem := storing.mem.write 0x0300 0x77 } onMirrors = busAccesses storing := by
  refine ⟨⟨_, rfl⟩, by decide⟩

end Sys2Proof.Tests
end

