-- ==== Sys2Proof/Proofs/State.lean ====
section
/-! The status byte that PHP pushes (10_state.md R29, 44_transfer_stack.md R183). -/

namespace Sys2Proof.Machine

open Sys2Proof.Claims

/-- R23: the stack cell of `SP`, known by its number. -/
theorem eq_stackAddr_iff (b : Addr) (sp : Byte) : b = stackAddr sp ↔ b.toNat = 256 + sp.toNat := by
  rw [← BitVec.toNat_inj, stackAddr_toNat]

/-- R170: the one cell a push changes, by its number. -/
theorem State.push8_read_toNat (s : State) (v : Byte) (b : Addr) :
    (s.push8 v).mem.read b = if b.toNat = 256 + s.sp.toNat then v else s.mem.read b := by
  simp only [State.push8_read, eq_stackAddr_iff]

/-- R29: `packStatus` makes the status byte of the flags, so `D` is not in it. -/
theorem statusByteOf_packStatus (s : State) : StatusByteOf s (packStatus s) := by
  simpa only [StatusByteOf, BitVec.getLsbD_eq_getElem, Nat.reduceLT] using packStatus_bits s

/-- R183: PHP pushes the packed flags and goes to the next instruction. -/
theorem exec_php (s : State) : exec .php s = .next { s with
    sp := s.sp - 1, pc := s.pc + 1, mem := (s.push8 (packStatus s)).mem } := rfl

/-- Settles O33: PHP is one push of `packStatus`, whose bits `statusByteOf_packStatus` gives, and a push changes one cell. -/
theorem statusPush : Obligations.StatusPush := by
  unfold Obligations.StatusPush
  intro s
  refine ⟨rfl, _, packStatus s, exec_php s, rfl, statusByteOf_packStatus s, ?_⟩
  exact s.push8_read_toNat (packStatus s)

end Sys2Proof.Machine
end

