-- ==== Sys2Proof/Proofs/Addressing.lean ====
section
/-! The addressing modes (40_addressing.md section 2): the number of each effective address, and the pointers of the
indirect modes. -/

namespace Sys2Proof.Machine

/-- R95, R96: an index is added inside the zero page. -/
theorem zext16_add_toNat (a b : Byte) : (zext16 (a + b)).toNat = (a.toNat + b.toNat) % 256 := by
  rw [zext16_toNat, BitVec.toNat_add]

/-- R98, R99, R101: an index byte is added to a 16-bit address modulo 65536. -/
theorem add_zext16_toNat (w : Addr) (b : Byte) : (w + zext16 b).toNat = (w.toNat + b.toNat) % 65536 := by
  rw [BitVec.toNat_add, zext16_toNat]

/-- R100, R101: the pointer's two bytes are read in the zero page, and `p + 1` wraps as a byte. -/
theorem zeroPagePointer_toNat (p : Byte) (s : State) : (zeroPagePointer p s).toNat =
    (s.mem.read (zext16 (p + 1))).toNat * 256 + (s.mem.read (zext16 p)).toNat :=
  ofHiLo_toNat _ _

/-- R102: the carry out of the pointer's low address byte is dropped. -/
theorem indirectTarget_ofHiLo (b2 b1 : Byte) (s : State) : indirectTarget (ofHiLo b2 b1) s =
    ofHiLo (s.mem.read (ofHiLo b2 (b1 + 1))) (s.mem.read (ofHiLo b2 b1)) := by
  rw [indirectTarget, hiByte_ofHiLo, loByte_ofHiLo]
  rfl

/-- The instructions of zp,Y (R96). -/
theorem eq_ldxZpy_or_stxZpy {i : Instr} (h : i.mode.name = .zpy) :
    (∃ a1, i = .ldxZpy a1) ∨ ∃ a1, i = .stxZpy a1 := by
  cases i <;> cases h
  case ldxZpy.refl a1 => exact .inl ⟨a1, rfl⟩
  case stxZpy.refl a1 => exact .inr ⟨a1, rfl⟩

/-- The instruction of the indirect mode (R102). -/
theorem eq_jmpInd {i : Instr} (h : i.mode.name = .ind) : ∃ w, i = .jmpInd w := by
  cases i <;> cases h
  case jmpInd.refl w => exact ⟨w, rfl⟩

/-- Settles O14: each zero-page address is a byte, where the index is added, put on the bus. -/
theorem zeroPageModesWrap : Obligations.ZeroPageModesWrap := by
  unfold Obligations.ZeroPageModesWrap
  constructor
  · intro a1 s
    exact ⟨⟨_, rfl, zext16_toNat a1⟩, ⟨_, rfl, zext16_add_toNat a1 s.x⟩, ⟨_, rfl, zext16_add_toNat a1 s.y⟩⟩
  · intro i h
    obtain ⟨a1, rfl⟩ | ⟨a1, rfl⟩ := eq_ldxZpy_or_stxZpy h
    · exact ⟨.head _, .inl rfl⟩
    · exact ⟨.tail _ (.head _), .inr rfl⟩

/-- Settles O15: the operand is known by its number, and an index is added to it as a 16-bit address. -/
theorem absoluteModesWrap : Obligations.AbsoluteModesWrap := by
  unfold Obligations.AbsoluteModesWrap
  intro b1 b2 s
  have indexed (v : Byte) : (ofHiLo b2 b1 + zext16 v).toNat = (b2.toNat * 256 + b1.toNat + v.toNat) % 65536 := by
    rw [add_zext16_toNat, ofHiLo_toNat]
  exact ⟨⟨_, rfl, ofHiLo_toNat b2 b1⟩, ⟨_, rfl, indexed s.x⟩, ⟨_, rfl, indexed s.y⟩⟩

/-- Settles O16: both modes go through `zeroPagePointer`, at `arg1 + X` and at `arg1`. -/
theorem zeroPagePointers : Obligations.ZeroPagePointers := by
  unfold Obligations.ZeroPagePointers
  intro a1 s
  constructor
  · refine ⟨_, zext16 (a1 + s.x), zext16 (a1 + s.x + 1), rfl, zext16_add_toNat a1 s.x, ?_, zeroPagePointer_toNat _ s⟩
    rw [zext16_add_toNat, BitVec.toNat_add]
    exact Nat.mod_add_mod _ 256 1
  · refine ⟨_, zext16 a1, zext16 (a1 + 1), rfl, zext16_toNat a1, zext16_add_toNat a1 1, ?_⟩
    rw [effectiveAddress, add_zext16_toNat, zeroPagePointer_toNat]

/-- Settles O17: `indirectTarget_ofHiLo`, whose case `b2 = 0x02`, `b1 = 0xFF` is the pointer at 0x02FF. -/
theorem jmpIndirectPageWrap : Obligations.JmpIndirectPageWrap := by
  unfold Obligations.JmpIndirectPageWrap
  refine ⟨fun b1 b2 s => congrArg Operand.target (indirectTarget_ofHiLo b2 b1 s),
    fun s => congrArg Operand.target (indirectTarget_ofHiLo 0x02 0xFF s), fun i h => ?_⟩
  obtain ⟨w, rfl⟩ := eq_jmpInd h
  rfl

/-- Settles O18: each clause is the resolver's arm of one mode, or the accumulator's handle. -/
theorem operandKinds : Obligations.OperandKinds := by
  unfold Obligations.OperandKinds
  intro b w m s
  exact ⟨rfl, rfl, rfl, rfl, ⟨indirectTarget w s, rfl⟩, ⟨effectiveAddress m s, rfl⟩, rfl, rfl⟩

end Sys2Proof.Machine
end

