-- ==== Sys2Proof/Proofs/LoadStore.lean ====
section
/-! Loads and stores (41_load_store.md): the table rows of a mnemonic, and what a load and a store answer. -/

namespace Sys2Proof.Machine

open Sys2Proof.Claims

/-- The rows of a mnemonic in the transcribed table of modes (30_encoding.md R75), with their lengths (R71). -/
def rowsOf (m : Mnemonic) : List (ModeName × Byte × Nat) :=
  ((modesPerMnemonic.lookup m).getD []).map fun e => (e.1, e.2, formatLength e.1)

/-- R75: every instruction has a row of its mnemonic. A row does not hold the operand, so each case is a closed fact. -/
theorem row_mem_rowsOf (i : Instr) : i.row ∈ rowsOf i.mnemonic := by
  cases i <;>
    dsimp only [Instr.row, Instr.mnemonic, Instr.mode, Instr.opcode, Instr.length, Mode.name, Mode.length,
      MemMode.name, ModeName.length] <;>
    decide

theorem row_mem_of_mnemonic {i : Instr} {m : Mnemonic} (h : i.mnemonic = m) : i.row ∈ rowsOf m :=
  h ▸ row_mem_rowsOf i

/-- R113 to R115: an instruction that runs `storeOp` changes the one cell its mode resolves to. -/
theorem storesByte_of_storeOp {i : Instr} {s : State} {v : Byte} {m : MemMode} (hm : i.mode = .mem m)
    (he : exec i s = storeOp v m s) : StoresByte i s v := by
  have hlen : memLength m = i.length := by rw [Instr.length, hm]; rfl
  rw [storeOp_eq, hlen] at he
  refine ⟨effectiveAddress m s, _, ?_, he, rfl, fun b => Memory.read_write s.mem _ b v⟩
  rw [hm, resolve]

/-- R110 to R112: an instruction that puts its source's value in a register by `load`, sets N and Z from it and advances,
does so with the operand value of its mode and with its own length. -/
theorem exec_of_load {i : Instr} {s : State} {src : Source} (load : Byte → State) (hm : src.mode = i.mode)
    (he : exec i s = .next (((load (src.value s)).setNZ (src.value s)).advance src.length)) :
    ∃ m, operandValue (resolve i.mode s) s = some m ∧ exec i s = .next { load m with
      flagN := decide (128 ≤ m.toNat), flagZ := decide (m = 0), pc := (load m).pc + BitVec.ofNat 16 i.length } := by
  refine ⟨src.value s, hm ▸ operandValue_source src s, ?_⟩
  rw [he, State.setNZ, zeroOf_eq, Source.length, hm]
  rfl

/-- Settles O20: each form is `storeOp` of its register, and a write changes one cell. -/
theorem storesWriteOneCell : Obligations.StoresWriteOneCell := by
  unfold Obligations.StoresWriteOneCell
  refine fun i s => ⟨fun h => ⟨row_mem_of_mnemonic h, ?sta⟩, fun h => ⟨row_mem_of_mnemonic h, ?stx⟩,
    fun h => ⟨row_mem_of_mnemonic h, ?sty⟩⟩
  case sta =>
    obtain ⟨m, hm, he⟩ := exec_sta h
    exact storesByte_of_storeOp hm (he s)
  case stx =>
    obtain ⟨m, hm, he⟩ := exec_stx h
    exact storesByte_of_storeOp hm (he s)
  case sty =>
    obtain ⟨m, hm, he⟩ := exec_sty h
    exact storesByte_of_storeOp hm (he s)

/-- Settles O19: each form is the load of its register from a source, whose value is the operand value of its mode. -/
theorem loadsWriteTheirRegister : Obligations.LoadsWriteTheirRegister := by
  unfold Obligations.LoadsWriteTheirRegister
  refine fun i s => ⟨fun h => ⟨row_mem_of_mnemonic h, ?lda⟩, fun h => ⟨row_mem_of_mnemonic h, ?ldx⟩,
    fun h => ⟨row_mem_of_mnemonic h, ?ldy⟩⟩
  case lda =>
    obtain ⟨src, hm, he⟩ := exec_lda h
    exact exec_of_load s.setA hm ((he s).trans (ldaOp_eq s src))
  case ldx =>
    obtain ⟨src, hm, he⟩ := exec_ldx h
    exact exec_of_load s.setX hm ((he s).trans (ldxOp_eq s src))
  case ldy =>
    obtain ⟨src, hm, he⟩ := exec_ldy h
    exact exec_of_load s.setY hm ((he s).trans (ldyOp_eq s src))

end Sys2Proof.Machine
end

