-- ==== Sys2Proof/Proofs/Alu.lean ====
section
/-! Arithmetic, logic, compare and BIT (42_alu.md): the adder and the compare in numbers, and what the instructions that
read `M` answer. -/

namespace Sys2Proof.Machine

/-! The pure functions of the `alu_6502` block (R130 to R132), known by numbers. -/

theorem adc_value_toNat (a m : Byte) (c : Bool) :
    (adc a m c).value.toNat = (a.toNat + m.toNat + c.toNat) % 256 :=
  BitVec.toNat_ofNat _ _

theorem adc_c_iff (a m : Byte) (c : Bool) : (adc a m c).c = true ↔ 255 < a.toNat + m.toNat + c.toNat :=
  decide_eq_true_iff

theorem adc_v_iff (a m : Byte) (c : Bool) : (adc a m c).v = true ↔
    (a ^^^ (adc a m c).value) &&& (m ^^^ (adc a m c).value) &&& 0x80 ≠ 0 :=
  bne_iff_ne

/-- The mask 0x80 keeps the sign bit. -/
theorem and_0x80_ne_zero_iff (b : Byte) : b &&& 0x80 ≠ 0 ↔ b.msb = true := by
  revert b; decide

/-- R131: the bit formula of `V` says that both operands have the sign that the result has not. -/
theorem adc_v_iff_signs (a m : Byte) (c : Bool) : (adc a m c).v = true ↔
    a.msb ≠ (adc a m c).value.msb ∧ m.msb ≠ (adc a m c).value.msb := by
  rw [adc_v_iff, and_0x80_ne_zero_iff, BitVec.msb_and, BitVec.msb_xor, BitVec.msb_xor, Bool.and_eq_true, bne_iff_ne,
    bne_iff_ne]

/-- R131: `V` is signed overflow. With the result's number `(a + m + c) % 256`, the signs decide on which side of the
signed range the sum lies. -/
theorem adc_v_iff_overflow (a m : Byte) (c : Bool) : (adc a m c).v = true ↔
    a.toInt + m.toInt + (c.toNat : Int) < -128 ∨ 127 < a.toInt + m.toInt + (c.toNat : Int) := by
  have ha := a.isLt
  have hm := m.isLt
  have hc := c.toNat_le
  rw [adc_v_iff_signs, BitVec.toInt_eq_toNat_cond, BitVec.toInt_eq_toNat_cond]
  simp only [BitVec.msb_eq_decide, adc_value_toNat, ne_eq, decide_eq_decide]
  split <;> split <;> omega

/-- R132: `N` is the sign of the difference modulo 256. -/
theorem cmp_eq (a b : Byte) : cmp a b =
    { c := decide (b.toNat ≤ a.toNat), z := decide (a = b), n := decide (128 ≤ (a.toNat + 256 - b.toNat) % 256) } := by
  have hb := b.isLt
  have hdiff : (a - b).toNat = (a.toNat + 256 - b.toNat) % 256 := by
    rw [BitVec.toNat_sub]
    omega
  rw [cmp, signOf, hdiff, beq_eq_decide]

/-! A source operand is known by its mode (R71, R104), and its value does not depend on `D`. -/

theorem operandValue_of_source_mode {i : Instr} {src : Source} (hm : src.mode = i.mode) (s : State) :
    operandValue (resolve i.mode s) s = some (src.value s) :=
  hm ▸ operandValue_source src s

theorem length_of_source_mode {i : Instr} {src : Source} (hm : src.mode = i.mode) : src.length = i.length :=
  congrArg Mode.length hm

theorem Source.value_withD (src : Source) (s : State) (d : Bool) : src.value { s with flagD := d } = src.value s := by
  cases src with
  | imm v => rfl
  | mem m => cases m <;> rfl

/-! On plain RAM reading the operand leaves the state as it was. -/

theorem adcOp_eq (src : Source) (s : State) : adcOp src s = addOp (src.value s) src.length s := by
  rw [adcOp, Source.after_ram]

theorem sbcOp_eq (src : Source) (s : State) : sbcOp src s = addOp (src.value s ^^^ 0xFF#8) src.length s := by
  rw [sbcOp, Source.after_ram]

theorem andOp_eq (src : Source) (s : State) : andOp src s = logicOp (s.a &&& src.value s) src.length s := by
  rw [andOp, Source.after_ram]

theorem oraOp_eq (src : Source) (s : State) : oraOp src s = logicOp (s.a ||| src.value s) src.length s := by
  rw [oraOp, Source.after_ram]

theorem eorOp_eq (src : Source) (s : State) : eorOp src s = logicOp (s.a ^^^ src.value s) src.length s := by
  rw [eorOp, Source.after_ram]

/-- R144: the adder neither reads nor writes `D`. -/
theorem addOp_withD (m : Byte) (len : Nat) (s : State) (d : Bool) :
    ∃ t, addOp m len s = .next t ∧ addOp m len { s with flagD := d } = .next { t with flagD := d } :=
  ⟨_, addOp_eq s m len, addOp_eq _ m len⟩

/-- R136 to R138: an instruction that runs `logicOp` on a function of its source's value does so on its operand value. -/
theorem exec_of_logicOp {i : Instr} {s : State} {src : Source} (f : Byte → Byte) (hm : src.mode = i.mode)
    (he : exec i s = logicOp (f (src.value s)) src.length s) :
    ∃ m, operandValue (resolve i.mode s) s = some m ∧ exec i s = .next { s with
      a := f m, flagN := decide (128 ≤ (f m).toNat), flagZ := decide (f m = 0)
      pc := s.pc + BitVec.ofNat 16 i.length } := by
  refine ⟨src.value s, operandValue_of_source_mode hm s, ?_⟩
  rw [he, logicOp_eq, length_of_source_mode hm, zeroOf_eq, signOf]

/-- R139 to R141: an instruction that runs `compareOp` compares the register `r` with its operand value. -/
theorem exec_of_compareOp {i : Instr} {s : State} {src : Source} {r : Byte} (hm : src.mode = i.mode)
    (he : exec i s = compareOp r src s) :
    ∃ m, operandValue (resolve i.mode s) s = some m ∧ exec i s = .next { s with
      flagC := decide (m.toNat ≤ r.toNat), flagZ := decide (r = m)
      flagN := decide (128 ≤ (r.toNat + 256 - m.toNat) % 256), pc := s.pc + BitVec.ofNat 16 i.length } := by
  refine ⟨src.value s, operandValue_of_source_mode hm s, ?_⟩
  rw [he, compareOp_eq, length_of_source_mode hm, cmp_eq]

/-- R144: ADC and SBC answer the same whatever `D` holds, and keep it. -/
theorem exec_add_withD {i : Instr} (h : i.mnemonic = .adc ∨ i.mnemonic = .sbc) (s : State) (d : Bool) :
    ∃ t, exec i s = .next t ∧ exec i { s with flagD := d } = .next { t with flagD := d } := by
  obtain h | h := h
  · obtain ⟨src, -, he⟩ := exec_adc h
    rw [he, he, adcOp_eq, adcOp_eq, Source.value_withD src s d]
    exact addOp_withD _ _ s d
  · obtain ⟨src, -, he⟩ := exec_sbc h
    rw [he, he, sbcOp_eq, sbcOp_eq, Source.value_withD src s d]
    exact addOp_withD _ _ s d

/-- Settles O21: every form of ADC is `addOp` of its operand value, whose result and flags the lemmas on `adc` give in
numbers; `addOp` does not read `D`. -/
theorem adcAddsWithCarry : Obligations.AdcAddsWithCarry := by
  unfold Obligations.AdcAddsWithCarry
  refine ⟨fun i s h => ⟨row_mem_of_mnemonic h, ?_⟩, fun i s d h => exec_add_withD h s d⟩
  obtain ⟨src, hm, he⟩ := exec_adc h
  refine ⟨src.value s, _, operandValue_of_source_mode hm s, ((he s).trans (adcOp_eq src s)).trans (addOp_eq s _ _), ?_,
    adc_value_toNat _ _ _, adc_c_iff _ _ _, adc_v_iff _ _ _, adc_v_iff_overflow _ _ _⟩
  rw [length_of_source_mode hm, zeroOf_eq, signOf]

/-- Settles O24: each form is `compareOp` of its register. -/
theorem comparesSetCarryZeroSign : Obligations.ComparesSetCarryZeroSign := by
  unfold Obligations.ComparesSetCarryZeroSign
  refine fun i s => ⟨fun h => ⟨row_mem_of_mnemonic h, ?cmp⟩, fun h => ⟨row_mem_of_mnemonic h, ?cpx⟩,
    fun h => ⟨row_mem_of_mnemonic h, ?cpy⟩⟩
  case cmp =>
    obtain ⟨src, hm, he⟩ := exec_cmp h
    exact exec_of_compareOp hm (he s)
  case cpx =>
    obtain ⟨src, hm, he⟩ := exec_cpx h
    exact exec_of_compareOp hm (he s)
  case cpy =>
    obtain ⟨src, hm, he⟩ := exec_cpy h
    exact exec_of_compareOp hm (he s)

/-- Settles O23: each form is `logicOp` of its operation on `A` and the operand value. -/
theorem logicalInstructions : Obligations.LogicalInstructions := by
  unfold Obligations.LogicalInstructions
  refine fun i s => ⟨fun h => ⟨row_mem_of_mnemonic h, ?and⟩, fun h => ⟨row_mem_of_mnemonic h, ?ora⟩,
    fun h => ⟨row_mem_of_mnemonic h, ?eor⟩⟩
  case and =>
    obtain ⟨src, hm, he⟩ := exec_and h
    exact exec_of_logicOp (s.a &&& ·) hm ((he s).trans (andOp_eq src s))
  case ora =>
    obtain ⟨src, hm, he⟩ := exec_ora h
    exact exec_of_logicOp (s.a ||| ·) hm ((he s).trans (oraOp_eq src s))
  case eor =>
    obtain ⟨src, hm, he⟩ := exec_eor h
    exact exec_of_logicOp (s.a ^^^ ·) hm ((he s).trans (eorOp_eq src s))

/-- Settles O25: both forms are `bitOp` of the cell that the mode resolves to. -/
theorem bitTestsMemory : Obligations.BitTestsMemory := by
  unfold Obligations.BitTestsMemory
  refine fun i s h => ⟨row_mem_of_mnemonic h, ?_⟩
  obtain ⟨m, hm, he⟩ := exec_bit h
  have hsrc : (Source.mem m).mode = i.mode := hm.symm
  have hlen : memLength m = i.length := length_of_source_mode hsrc
  refine ⟨(Source.mem m).value s, operandValue_of_source_mode hsrc s, ?_⟩
  rw [he, bitOp_eq, hlen, Source.value_mem, bitTest, zeroOf_eq]

end Sys2Proof.Machine
end

