-- ==== Sys2Proof/Proofs/ShiftIncDec.lean ====
section
/-! Shifts, rotates, increments and decrements (43_shift_incdec.md): the new bytes in numbers, and what the instructions
that rewrite a handle or an index register answer. -/

namespace Sys2Proof.Machine

open Sys2Proof.Claims

/-! The new bytes of R150 to R153 and of R158 to R163, known by numbers. -/

theorem asl_value_toNat (old : Byte) : (asl old).value.toNat = 2 * old.toNat % 256 := by
  rw [asl, BitVec.toNat_shiftLeft, Nat.shiftLeft_eq, Nat.mul_comm]

theorem lsr_value_toNat (old : Byte) : (lsr old).value.toNat = old.toNat / 2 := by
  rw [lsr, BitVec.toNat_ushiftRight, Nat.shiftRight_one]

/-- R152: the carry comes in below the seven bits that stay. -/
theorem rol_value_eq_shiftConcat (old : Byte) (c : Bool) : (rol old c).value = old.shiftConcat c := by
  refine BitVec.eq_of_getLsbD_eq fun k hk => ?_
  cases c <;> cases k <;> simp [rol, ofBit, hk]

theorem rol_value_toNat (old : Byte) (c : Bool) : (rol old c).value.toNat = (2 * old.toNat + c.toNat) % 256 := by
  rw [rol_value_eq_shiftConcat, BitVec.toNat_shiftConcat, Nat.shiftLeft_eq, Nat.mul_comm]

/-- R153: the carry comes in above the seven bits that stay, so the `|||` of the two is their sum. -/
theorem ror_value_toNat (old : Byte) (c : Bool) : (ror old c).value.toNat = 128 * c.toNat + old.toNat / 2 := by
  have hold := old.isLt
  have hlow : old.toNat / 2 < 2 ^ 7 := by omega
  have hcarry : (ofBit c <<< 7).toNat = c.toNat <<< 7 := by cases c <;> rfl
  rw [ror, BitVec.toNat_or, hcarry, BitVec.toNat_ushiftRight, Nat.shiftRight_one,
    ← Nat.shiftLeft_add_eq_or_of_lt hlow, Nat.shiftLeft_eq, Nat.mul_comm]

theorem byte_add_one_toNat (b : Byte) : (b + 1).toNat = (b.toNat + 1) % 256 :=
  BitVec.toNat_add b 1

theorem byte_sub_one_toNat (b : Byte) : (b - 1).toNat = (b.toNat + 255) % 256 := by
  rw [BitVec.toNat_sub, Nat.add_comm]
  rfl

/-- R105, R154 to R157: an instruction that runs `shiftOp f` rewrites the handle of its mode by `f`, and sets C, N and Z
from it. -/
theorem exec_of_shiftOp {i : Instr} {s : State} {f : Byte → ShiftResult} {tgt : Target} (hm : tgt.mode = i.mode)
    (he : exec i s = shiftOp f tgt s) :
    ∃ old t, exec i s = .next t ∧ HandleRewritten (resolve i.mode s) s t old (f old).value ∧
      t = { s with
        a := t.a, mem := t.mem, flagC := (f old).c, flagN := decide (128 ≤ (f old).value.toNat)
        flagZ := decide ((f old).value = 0), pc := s.pc + BitVec.ofNat 16 i.length } := by
  rw [Instr.length, ← hm]
  cases tgt with
  | acc =>
    refine ⟨s.a, _, he.trans (shiftOp_acc s f), .inl ⟨rfl, rfl, rfl, rfl⟩, ?_⟩
    rw [zeroOf_eq]
    rfl
  | mem m =>
    refine ⟨s.mem.read (effectiveAddress m s), _, he.trans (shiftOp_mem s f m),
      .inr ⟨effectiveAddress m s, rfl, rfl, rfl, fun b => Memory.read_write s.mem _ b _⟩, ?_⟩
    rw [zeroOf_eq]
    rfl

/-- R158, R159: an instruction that runs `modifyOp f` rewrites the cell its mode resolves to by `f`, and sets N and Z. -/
theorem exec_of_modifyOp {i : Instr} {s : State} {f : Byte → Byte} {m : MemMode} (hm : i.mode = .mem m)
    (he : exec i s = modifyOp f m s) :
    ∃ ea t, resolve i.mode s = .mem ea ∧ exec i s = .next t ∧
      (∀ b, t.mem.read b = if b = ea then f (s.mem.read ea) else s.mem.read b) ∧
      t = { s with
        mem := t.mem, flagN := decide (128 ≤ (f (s.mem.read ea)).toNat), flagZ := decide (f (s.mem.read ea) = 0)
        pc := s.pc + BitVec.ofNat 16 i.length } := by
  rw [Instr.length, hm]
  refine ⟨effectiveAddress m s, _, rfl, he.trans (modifyOp_eq s f m), fun b => Memory.read_write s.mem _ b _, ?_⟩
  rw [zeroOf_eq]
  rfl

/-- R160 to R163: the end of an instruction that sets N and Z from `v` and has one byte. -/
theorem next_setNZ_advance (s : State) (v : Byte) : (.next ((s.setNZ v).advance 1) : Result) =
    .next { s with flagN := decide (128 ≤ v.toNat), flagZ := decide (v = 0), pc := s.pc + 1 } := by
  rw [State.setNZ, zeroOf_eq]
  rfl

/-- Settles O26: every form is `shiftOp` of `asl` or of `lsr`, whose bytes the lemmas above give in numbers. -/
theorem shiftsMoveOneBitOut : Obligations.ShiftsMoveOneBitOut := by
  unfold Obligations.ShiftsMoveOneBitOut
  refine fun i s => ⟨fun h => ⟨row_mem_of_mnemonic h, ?asl⟩, fun h => ⟨row_mem_of_mnemonic h, ?lsr⟩⟩
  case asl =>
    obtain ⟨tgt, hm, he⟩ := exec_asl h
    obtain ⟨old, t, hnext, hrw, ht⟩ := exec_of_shiftOp hm (he s)
    exact ⟨old, _, t, hnext, hrw, ht, asl_value_toNat old⟩
  case lsr =>
    obtain ⟨tgt, hm, he⟩ := exec_lsr h
    obtain ⟨old, t, hnext, hrw, ht⟩ := exec_of_shiftOp hm (he s)
    exact ⟨old, _, t, hnext, hrw, ht, lsr_value_toNat old⟩

/-- Settles O27: every form is `shiftOp` of `rol` or of `ror` with the old carry. -/
theorem rotatesGoThroughCarry : Obligations.RotatesGoThroughCarry := by
  unfold Obligations.RotatesGoThroughCarry
  refine fun i s => ⟨fun h => ⟨row_mem_of_mnemonic h, ?rol⟩, fun h => ⟨row_mem_of_mnemonic h, ?ror⟩⟩
  case rol =>
    obtain ⟨tgt, hm, he⟩ := exec_rol h
    obtain ⟨old, t, hnext, hrw, ht⟩ := exec_of_shiftOp hm (he s)
    exact ⟨old, _, t, hnext, hrw, ht, rol_value_toNat old s.flagC⟩
  case ror =>
    obtain ⟨tgt, hm, he⟩ := exec_ror h
    obtain ⟨old, t, hnext, hrw, ht⟩ := exec_of_shiftOp hm (he s)
    exact ⟨old, _, t, hnext, hrw, ht, ror_value_toNat old s.flagC⟩

/-- Settles O28: every form is `modifyOp` of plus one or of minus one. -/
theorem incDecRewriteOneCell : Obligations.IncDecRewriteOneCell := by
  unfold Obligations.IncDecRewriteOneCell
  refine fun i s => ⟨fun h => ⟨row_mem_of_mnemonic h, ?inc⟩, fun h => ⟨row_mem_of_mnemonic h, ?dec⟩⟩
  case inc =>
    obtain ⟨m, hm, he⟩ := exec_inc h
    obtain ⟨ea, t, hres, hnext, hcells, ht⟩ := exec_of_modifyOp hm (he s)
    exact ⟨ea, _, t, hres, hnext, byte_add_one_toNat _, hcells, ht⟩
  case dec =>
    obtain ⟨m, hm, he⟩ := exec_dec h
    obtain ⟨ea, t, hres, hnext, hcells, ht⟩ := exec_of_modifyOp hm (he s)
    exact ⟨ea, _, t, hres, hnext, byte_sub_one_toNat _, hcells, ht⟩

/-- Settles O29: each of the four writes its register and ends by `next_setNZ_advance`. -/
theorem indexIncDecWrap : Obligations.IndexIncDecWrap := by
  unfold Obligations.IndexIncDecWrap
  exact fun s =>
    ⟨⟨_, byte_add_one_toNat s.x, rfl, next_setNZ_advance (s.setX (s.x + 1)) _⟩,
      ⟨_, byte_add_one_toNat s.y, rfl, next_setNZ_advance (s.setY (s.y + 1)) _⟩,
      ⟨_, byte_sub_one_toNat s.x, rfl, next_setNZ_advance (s.setX (s.x - 1)) _⟩,
      ⟨_, byte_sub_one_toNat s.y, rfl, next_setNZ_advance (s.setY (s.y - 1)) _⟩⟩

end Sys2Proof.Machine
end

