-- ==== Sys2Proof/Proofs/TransferStack.lean ====
section
/-! Transfers and the stack manager (44_transfer_stack.md): what `push16` and `pop16` leave, in the cells and in `SP`. -/

namespace Sys2Proof.Machine

/-! R172: the two cells and the stack pointer that `push16` leaves. -/

theorem State.push16_read (s : State) (w b : Addr) : (s.push16 w).mem.read b =
    if b = stackAddr (s.sp - 1) then loByte w else if b = stackAddr s.sp then hiByte w else s.mem.read b := by
  rw [State.push16, State.push8_read, State.push8_read, State.push8_sp]

theorem State.push16_eq (s : State) (w : Addr) : s.push16 w = { s with sp := s.sp - 2, mem := (s.push16 w).mem } := by
  have hsp : s.sp - 1 - 1 = s.sp - 2 := sp_sub_one_sub_one s.sp
  rw [← hsp]
  rfl

theorem State.push16_read_high (s : State) (w : Addr) : (s.push16 w).mem.read (stackAddr s.sp) = hiByte w := by
  have hne : stackAddr s.sp ≠ stackAddr (s.sp - 1) := by simp
  rw [State.push16_read, if_neg hne, if_pos rfl]

theorem State.push16_read_low (s : State) (w : Addr) : (s.push16 w).mem.read (stackAddr (s.sp - 1)) = loByte w := by
  rw [State.push16_read, if_pos rfl]

theorem State.push16_read_of_ne (s : State) (w : Addr) {b : Addr} (hhigh : b ≠ stackAddr s.sp)
    (hlow : b ≠ stackAddr (s.sp - 1)) : (s.push16 w).mem.read b = s.mem.read b := by
  rw [State.push16_read, if_neg hlow, if_neg hhigh]

/-! R173: the value `pop16` answers and the stack pointer it leaves. -/

theorem State.pop16Value_eq (s : State) : s.pop16Value =
    ofHiLo (s.mem.read (stackAddr (s.sp + 2))) (s.mem.read (stackAddr (s.sp + 1))) := by
  have hsp : s.sp + 1 + 1 = s.sp + 2 := sp_add_one_add_one s.sp
  rw [← hsp]
  rfl

theorem State.pop16_eq (s : State) : s.pop16 = { s with sp := s.sp + 2 } := by
  have hsp : s.sp + 1 + 1 = s.sp + 2 := sp_add_one_add_one s.sp
  rw [← hsp]
  rfl

/-- R173: `pop16` reads the two cells that `push16` wrote, the low byte's first. -/
theorem State.pop16Value_push16 (s : State) (w : Addr) : (s.push16 w).pop16Value = w := by
  have hhigh : (s.push16 w).sp + 2 = s.sp := by rw [State.push16_eq, BitVec.sub_add_cancel]
  have hlow : (s.push16 w).sp + 1 = s.sp - 1 := BitVec.sub_add_cancel (s.sp - 1) 1
  rw [State.pop16Value_eq, hhigh, hlow, State.push16_read_high, State.push16_read_low, ofHiLo_hiByte_loByte]

/-- R173: `pop16` raises `SP` by the two that `push16` took. -/
theorem State.pop16_push16 (s : State) (w : Addr) : (s.push16 w).pop16 = { s with mem := (s.push16 w).mem } := by
  rw [State.pop16_eq, State.push16_eq, BitVec.sub_add_cancel]

/-- Settles O44: the laws of `push16` and of `pop16`, each at its two stack cells, and their round trip. -/
theorem popSixteenUndoesPushSixteen : Obligations.PopSixteenUndoesPushSixteen := by
  unfold Obligations.PopSixteenUndoesPushSixteen
  intro v s
  exact ⟨⟨_, rfl, s.push16_eq v, s.push16_read_high v, s.push16_read_low v, fun _ => s.push16_read_of_ne v⟩,
    s.pop16Value_eq, s.pop16_eq, s.pop16Value_push16 v, s.pop16_push16 v⟩

/-- Settles O43: a push changes the cell of the old `SP`, a pull reads the cell of the new one, and `SP` moves by one as a
byte. -/
theorem bytePushAndPop : Obligations.BytePushAndPop := by
  unfold Obligations.BytePushAndPop
  intro v s
  constructor
  · exact ⟨_, rfl, rfl, byte_sub_one_toNat s.sp, s.push8_read_toNat v⟩
  · exact ⟨_, stackAddr (s.sp + 1), rfl, rfl, byte_add_one_toNat s.sp, stackAddr_toNat _, rfl⟩

/-- Settles O30: each of the five writes its register and ends by `next_setNZ_advance`. -/
theorem transfersCopyAndSetNZ : Obligations.TransfersCopyAndSetNZ := by
  unfold Obligations.TransfersCopyAndSetNZ
  exact fun s =>
    ⟨⟨rfl, next_setNZ_advance (s.setX s.a) s.a⟩,
      ⟨rfl, next_setNZ_advance (s.setY s.a) s.a⟩,
      ⟨rfl, next_setNZ_advance (s.setA s.x) s.x⟩,
      ⟨rfl, next_setNZ_advance (s.setA s.y) s.y⟩,
      ⟨rfl, next_setNZ_advance (s.setX s.sp) s.sp⟩⟩

end Sys2Proof.Machine
end

