-- ==== Sys2Proof/Proofs/Control.lean ====
section
/-! Control transfer (45_control.md): the operand bytes of a 16-bit target, what a branch answers, and the states that
BEQ, JMP, JSR and RTS leave. -/

namespace Sys2Proof.Machine

open Sys2Proof.Claims

/-- R71: an operand given as `arg2:arg1` is encoded as `arg1` and then `arg2`. -/
theorem operandBytes_abs_ofHiLo (b2 b1 : Byte) : (Mode.mem (.abs (ofHiLo b2 b1))).operandBytes = [b1, b2] := by
  rw [Mode.operandBytes, MemMode.operandBytes, hiByte_ofHiLo, loByte_ofHiLo]

/-- R71: so is the pointer of JMP indirect. -/
theorem operandBytes_ind_ofHiLo (b2 b1 : Byte) : (Mode.ind (ofHiLo b2 b1)).operandBytes = [b1, b2] := by
  rw [Mode.operandBytes, hiByte_ofHiLo, loByte_ofHiLo]

/-! Branches (R191). -/

/-- R103, R191: the displacement is added as a signed number, modulo 65536. -/
theorem add_sext16_toNat (w : Addr) (d : Byte) :
    ((w + sext16 d).toNat : Int) = ((w.toNat : Int) + d.toInt) % 65536 := by
  have hsext : (sext16 d).toInt = d.toInt := BitVec.toInt_signExtend_of_le (by decide)
  rw [← hsext, BitVec.toInt_eq_toNat_cond, BitVec.toNat_add]
  split <;> omega

/-- R191: both outcomes of an instruction that is a branch. -/
theorem branchesWhen_of_branchOp {i : Instr} {s : State} {cond : Bool} {d : Byte} (he : exec i s = branchOp cond d s) :
    BranchesWhen i d (cond = true) s := by
  have hlength : (s.pc + 2).toNat = (s.pc.toNat + 2) % 65536 := BitVec.toNat_add s.pc 2
  refine ⟨_, he.trans (branchOp_eq s cond d), rfl, fun taken => ?_, fun notTaken => ?_⟩
  · rw [if_pos taken, add_sext16_toNat, hlength]
    omega
  · rw [if_neg notTaken, hlength]

/-- R199: a displacement of -2 takes back the length of the branch. -/
theorem add_two_add_sext16_neg_two (w : Addr) : w + 2 + sext16 0xFE = w := by
  have hcancel : (2 : Addr) + sext16 0xFE = 0#16 := by decide
  rw [BitVec.add_assoc, hcancel, BitVec.add_zero]

/-! Jumps and subroutines (R200 to R202). -/

/-- R201: JSR is one `push16` of `PC + 2` and a jump. -/
theorem exec_jsr (w : Addr) (s : State) : exec (.jsr w) s = .next { s with
    sp := s.sp - 2, pc := w, mem := (s.push16 (s.pc + 2)).mem } :=
  congrArg (fun t : State => (.next (t.setPc w) : Result)) (s.push16_eq (s.pc + 2))

/-- R202: RTS is one `pop16` and a jump to one past the address popped. -/
theorem exec_rts (s : State) : exec .rts s = .next { s with sp := s.sp + 2, pc := s.pop16Value + 1 } :=
  congrArg (fun t : State => (.next (t.setPc (s.pop16Value + 1)) : Result)) s.pop16_eq

/-- R172: the cells `push16` leaves, the high byte's first. -/
theorem State.push16_read_high_low (s : State) (w b : Addr) : (s.push16 w).mem.read b =
    if b = stackAddr s.sp then hiByte w else if b = stackAddr (s.sp - 1) then loByte w else s.mem.read b := by
  split_ifs with hhigh hlow
  · rw [hhigh, State.push16_read_high]
  · rw [hlow, State.push16_read_low]
  · exact s.push16_read_of_ne w hhigh hlow

/-- Settles O38: `exec_jsr`, and the two cells that its `push16` writes. -/
theorem jsrPushesItsLastByte : Obligations.JsrPushesItsLastByte := by
  unfold Obligations.JsrPushesItsLastByte
  intro b1 b2 s
  exact ⟨congrArg (List.cons 0x20) (operandBytes_abs_ofHiLo b2 b1), _, exec_jsr _ s, rfl,
    s.push16_read_high_low (s.pc + 2)⟩

/-- Settles O36: BEQ is a branch on `Z`, and its displacement 0xFE leads back to itself. -/
theorem beqBranchesOnZero : Obligations.BeqBranchesOnZero := by
  unfold Obligations.BeqBranchesOnZero
  refine fun d s => ⟨rfl, branchesWhen_of_branchOp rfl, fun hZ => ?_⟩
  calc exec (.beq 0xFE) s
    _ = .next { s with pc := if s.flagZ then s.pc + 2 + sext16 0xFE else s.pc + 2 } := branchOp_eq s s.flagZ 0xFE
    _ = .next s := by rw [if_pos hZ, add_two_add_sext16_neg_two]

/-- Settles O37: both forms set `PC` to their target, which `indirectTarget_ofHiLo` gives for the pointer. -/
theorem jmpWritesPc : Obligations.JmpWritesPc := by
  unfold Obligations.JmpWritesPc
  intro b1 b2 s
  exact ⟨congrArg (List.cons 0x4C) (operandBytes_abs_ofHiLo b2 b1),
    congrArg (List.cons 0x6C) (operandBytes_ind_ofHiLo b2 b1), rfl,
    congrArg (fun target => (.next (s.setPc target) : Result)) (indirectTarget_ofHiLo b2 b1 s)⟩

/-- Settles O39: `exec_rts`, with the two cells that its `pop16` reads. -/
theorem rtsPopsAndAddsOne : Obligations.RtsPopsAndAddsOne := by
  unfold Obligations.RtsPopsAndAddsOne
  refine fun s => ⟨rfl, (exec_rts s).trans ?_⟩
  rw [State.pop16Value_eq]
  rfl

end Sys2Proof.Machine
end

