-- ==== Sys2Proof/Proofs/Decode.lean ====
section
/-! The decoder and the encoder (30_encoding.md): the bytes that the opcode map reads are those of the instruction it
holds, in both directions, and the two tables of the spec against it. -/

namespace Sys2Proof.Machine

open Sys2Proof.Claims

/-! The opcode map and the operand bytes. -/

/-- R73: the operand bytes of what the opcode map holds are the first of the two bytes it was looked up with. -/
theorem operandBytes_of_decodeTable {op b1 b2 : Byte} {i : Instr} (h : decodeTable op b1 b2 = some i) :
    i.mode.operandBytes = [b1, b2].take (i.length - 1) := by
  unfold decodeTable at h
  dsimp only at h
  split at h
  all_goals
    simp only [decodeRow0, decodeRow1, decodeRow2, decodeRow3, decodeRow4, decodeRow5, decodeRow6, decodeRow7,
      decodeRow8, decodeRow9, decodeRowA, decodeRowB, decodeRowC, decodeRowD, decodeRowE, decodeRowF, reduceCtorEq] at h
  all_goals
    split at h <;> cases h <;>
      simp [Instr.length, Instr.mode, Mode.length, Mode.name, MemMode.name, ModeName.length, Mode.operandBytes,
        MemMode.operandBytes]

/-- R74: looked up by its opcode byte, with its operand bytes first among the two after it, an instruction is found. -/
theorem decodeTable_opcode {i : Instr} {b1 b2 : Byte} (h : i.mode.operandBytes = [b1, b2].take (i.length - 1)) :
    decodeTable i.opcode b1 b2 = some i := by
  cases i
  all_goals
    cases h
    simp [Instr.opcode, decodeTable, decodeRow0, decodeRow1, decodeRow2, decodeRow3, decodeRow4, decodeRow5, decodeRow6,
      decodeRow7, decodeRow8, decodeRow9, decodeRowA, decodeRowB, decodeRowC, decodeRowD, decodeRowE, decodeRowF]

theorem decodeBytes_eq_recognized_iff {op b1 b2 : Byte} {i : Instr} :
    decodeBytes op b1 b2 = .recognized i ↔ decodeTable op b1 b2 = some i := by
  rw [decodeBytes_eq]
  cases decodeTable op b1 b2 <;> simp

theorem decodeBytes_opcode {i : Instr} {b1 b2 : Byte} (h : i.mode.operandBytes = [b1, b2].take (i.length - 1)) :
    decodeBytes i.opcode b1 b2 = .recognized i :=
  decodeBytes_eq_recognized_iff.mpr (decodeTable_opcode h)

theorem operandBytes_of_decodeBytes {op b1 b2 : Byte} {i : Instr} (h : decodeBytes op b1 b2 = .recognized i) :
    i.mode.operandBytes = [b1, b2].take (i.length - 1) :=
  operandBytes_of_decodeTable (decodeBytes_eq_recognized_iff.mp h)

/-- R71: the operand bytes of an instruction follow its opcode byte. -/
theorem operandBytes_length (i : Instr) : i.mode.operandBytes.length = i.length - 1 := by
  rw [Instr.length]
  generalize i.mode = m
  rcases m with _ | _ | _ | m | _ | _
  case mem => cases m <;> rfl
  all_goals rfl

/-- R71: an instruction has one to three bytes. -/
theorem instr_length_bounds (i : Instr) : 1 ≤ i.length ∧ i.length ≤ 3 := by
  rw [Instr.length, Mode.length]
  generalize i.mode.name = m
  cases m <;> decide

/-! The decoder of byte lists reads zeros past the end, which it then does not take. -/

theorem take_getD_pair (l : List Byte) {k : Nat} (hk : k ≤ 2) (hl : k ≤ l.length) :
    [l.getD 0 0, l.getD 1 0].take k = l.take k := by
  obtain rfl | rfl | rfl : k = 0 ∨ k = 1 ∨ k = 2 := by omega
  · rfl
  · match l, hl with
    | a :: l, _ => rfl
  · match l, hl with
    | a :: b :: l, _ => rfl

/-- The operand bytes of an instruction are the two bytes the decoder looks at, as far as its length goes. -/
theorem operandBytes_eq_take (i : Instr) (rest : List Byte) : i.mode.operandBytes =
    [(i.mode.operandBytes ++ rest).getD 0 0, (i.mode.operandBytes ++ rest).getD 1 0].take (i.length - 1) := by
  have hlength := operandBytes_length i
  obtain ⟨-, hmax⟩ := instr_length_bounds i
  rw [take_getD_pair _ (by omega) (by rw [List.length_append]; omega), ← hlength, List.take_left]

/-- The decoder of byte lists answers an instruction exactly when the list is its encoding and what is left. -/
theorem decode_eq_ok_iff {bytes rest : List Byte} {i : Instr} :
    decode bytes = .ok (i, rest) ↔ bytes = encode i ++ rest := by
  constructor
  · intro h
    cases bytes with
    | nil => cases h
    | cons op tail =>
      rw [decode] at h
      split at h
      case h_1 => cases h
      case h_2 j hj =>
        split at h
        case isFalse => cases h
        case isTrue hfits =>
          cases h
          obtain ⟨-, hmax⟩ := instr_length_bounds i
          rw [encode, opcode_of_decodeBytes hj, operandBytes_of_decodeBytes hj,
            take_getD_pair tail (by omega) (by omega), List.cons_append, List.take_append_drop]
  · rintro rfl
    have hlength := operandBytes_length i
    have hfits : i.length ≤ (i.mode.operandBytes ++ rest).length + 1 := by
      rw [List.length_append]
      omega
    rw [encode, List.cons_append, decode, decodeBytes_opcode (operandBytes_eq_take i rest)]
    simp only [if_pos hfits, ← hlength, List.drop_left]

/-- R76: the opcode byte of every instruction is in `OFFICIAL_151`. -/
theorem instr_wellFormed (i : Instr) : i.WellFormed standardConfig := by
  have hfound := decodeTable_opcode (operandBytes_eq_take i [])
  exact (decodeTable_isSome _ _ _).symm.trans (Option.isSome_of_eq_some hfound)

/-- Settles O1: an instruction is well-formed because the opcode map holds it, and `decode_eq_ok_iff` gives the round
trip. -/
theorem decodeInvertsEncode : Obligations.DecodeInvertsEncode := by
  unfold Obligations.DecodeInvertsEncode
  exact fun i rest => ⟨instr_wellFormed i, decode_eq_ok_iff.mpr rfl⟩

/-- Settles O2: the other direction of `decode_eq_ok_iff`. -/
theorem encodeInvertsDecode : Obligations.EncodeInvertsDecode := by
  unfold Obligations.EncodeInvertsDecode
  exact fun bytes rest i => decode_eq_ok_iff.mp

/-! The tables of the spec. -/

/-- R72: the mnemonic and the mode in the opcode map do not depend on the bytes after the opcode. -/
theorem decodeTable_row_args (op b1 b2 : Byte) :
    (decodeTable op b1 b2).map (fun i => (i.mnemonic, i.mode.name)) =
      (decodeTable op 0 0).map (fun i => (i.mnemonic, i.mode.name)) := by
  unfold decodeTable
  dsimp only
  split
  all_goals
    simp only [decodeRow0, decodeRow1, decodeRow2, decodeRow3, decodeRow4, decodeRow5, decodeRow6, decodeRow7,
      decodeRow8, decodeRow9, decodeRowA, decodeRowB, decodeRowC, decodeRowD, decodeRowE, decodeRowF]
  all_goals split <;> rfl

/-- R75: the rows of the transcribed table stand in the opcode map at their bytes. -/
theorem decodeTable_of_mem_modesPerMnemonic : ∀ row ∈ modesPerMnemonic, ∀ e ∈ row.2,
    (decodeTable e.2 0 0).map (fun i => (i.mnemonic, i.mode.name)) = some (row.1, e.1) := by
  decide

/-- R71: the length column of the formats table. -/
theorem modeName_length_eq (m : ModeName) : m.length = formatLength m := by
  cases m <;> rfl

/-- Settles O3: mnemonic and mode are in the table for any following bytes, and the bytes are those of the encoding. -/
theorem opcodeMapAsTabulated : Obligations.OpcodeMapAsTabulated := by
  unfold Obligations.OpcodeMapAsTabulated
  intro row hrow e he b1 b2
  have htable := (decodeTable_row_args e.2 b1 b2).trans (decodeTable_of_mem_modesPerMnemonic row hrow e he)
  obtain ⟨i, hi, hcolumns⟩ := Option.map_eq_some_iff.mp htable
  obtain ⟨hmnemonic, hmode⟩ := Prod.mk.inj hcolumns
  have hlength : i.length = formatLength e.1 := by rw [← hmode, ← modeName_length_eq]; rfl
  refine ⟨i, decodeBytes_eq_recognized_iff.mpr hi, hmnemonic, hmode, hlength, ?_⟩
  obtain ⟨hmin, -⟩ := instr_length_bounds i
  rw [encode, opcode_of_decodeTable hi, operandBytes_of_decodeTable hi, ← hlength, ← List.take_succ_cons,
    Nat.sub_add_cancel hmin]

/-- R76: the transcribed list is that of the bytes with no row, in rising order. -/
theorem unrecognizedBytes_eq_filter : unrecognizedBytes =
    ((List.range 256).map (BitVec.ofNat 8)).filter fun op => (decodeTable op 0 0).isNone := by
  decide

theorem decodeTable_eq_none_iff {op b1 b2 : Byte} : decodeTable op b1 b2 = none ↔ op ∈ unrecognizedBytes := by
  have hbyte : op ∈ (List.range 256).map (BitVec.ofNat 8) :=
    List.mem_map.mpr ⟨op.toNat, List.mem_range.mpr op.isLt, BitVec.ofNat_toNat 8 op⟩
  have hargs := decodeTable_isSome_args op b1 b2 0 0
  rw [unrecognizedBytes_eq_filter, List.mem_filter, and_iff_right hbyte,
    ← Option.not_isSome_iff_eq_none, hargs, Option.not_isSome_iff_eq_none, Option.isNone_iff_eq_none]

theorem decodeBytes_eq_unrecognized_iff {op b1 b2 : Byte} :
    decodeBytes op b1 b2 = .unrecognized op ↔ op ∈ unrecognizedBytes := by
  rw [← decodeTable_eq_none_iff (b1 := b1) (b2 := b2), decodeBytes_eq]
  cases decodeTable op b1 b2 <;> simp

/-- Settles O4: the bytes with no row are those of the transcribed list, and they alone are unrecognized. -/
theorem otherBytesUnrecognized : Obligations.OtherBytesUnrecognized := by
  unfold Obligations.OtherBytesUnrecognized
  exact ⟨rfl, fun op b1 b2 => decodeBytes_eq_unrecognized_iff⟩

/-- Settles O5: each sample is the encoding of the instruction named, which `decodeBytes_opcode` decodes. -/
theorem sampleWordsDecode : Obligations.SampleWordsDecode := by
  unfold Obligations.SampleWordsDecode
  exact fun b c => ⟨decodeBytes_opcode (i := .ldaImm 0x05) rfl, decodeBytes_opcode (i := .jsr 0x1234) rfl,
    decodeBytes_opcode (i := .rts) rfl, decodeBytes_opcode (i := .cmpImm 0x10) rfl,
    decodeBytes_opcode (i := .beq 0xFE) rfl, decodeBytes_opcode (i := .aslZp 0x10) rfl,
    decodeBytes_opcode (i := .stxZpy 0xF8) rfl, decodeBytes_opcode (i := .adcImm 0x50) rfl,
    decodeBytes_opcode (i := .pha) rfl, decodeBytes_opcode (i := .clc) rfl,
    decodeBytes_opcode (i := .jmpInd 0x02FF) rfl⟩

end Sys2Proof.Machine
end

