-- ==== Sys2Proof/Proofs/Step.lean ====
section
/-! The step, the halt and the host interface (10_state.md R34, 60_exceptions.md R231 to R245, 70_reset_and_hazards.md
R260 to R263). -/

namespace Sys2Proof.Machine

open Sys2Proof.Claims

/-! What a step answers, by what is fetched. -/

theorem stepWith_of_recognized {c : Config} {s : State} (hrun : s.halted = false) {i : Instr}
    (h : decodeIn c.recognizedSet (fetch s c.bus).op (fetch s c.bus).arg1 (fetch s c.bus).arg2 = .recognized i) :
    stepWith c s = execWith c i (afterFetch s c.bus) := by
  rw [stepWith, if_neg (by simp [hrun]), h]

theorem stepWith_of_unrecognized {c : Config} {s : State} (hrun : s.halted = false) {op : Byte}
    (h : decodeIn c.recognizedSet (fetch s c.bus).op (fetch s c.bus).arg1 (fetch s c.bus).arg2 = .unrecognized op) :
    stepWith c s = .next (raiseUnrecognized op (afterFetch s c.bus)) := by
  rw [stepWith, if_neg (by simp [hrun]), h]

theorem step_of_recognized {s : State} (hrun : s.halted = false) {i : Instr}
    (h : decodeBytes (s.mem.read s.pc) (s.mem.read (s.pc + 1)) (s.mem.read (s.pc + 2)) = .recognized i) :
    step s = exec i s := by
  rw [← stepWith_standard, stepWith_of_recognized (c := standardConfig) hrun h, execWith_standard]
  rfl

theorem step_of_unrecognized {s : State} (hrun : s.halted = false) {op : Byte}
    (h : decodeBytes (s.mem.read s.pc) (s.mem.read (s.pc + 1)) (s.mem.read (s.pc + 2)) = .unrecognized op) :
    step s = .next (raiseUnrecognized op s) := by
  rw [← stepWith_standard, stepWith_of_unrecognized (c := standardConfig) hrun h]
  rfl

theorem step_of_halted {s : State} (hhalt : s.halted = true) : step s = .fault (.halted s.faultRecord) := by
  rw [step, if_pos hhalt]

/-- Settles O6: the three answers of a step. -/
theorem stepFetchesDecodesAndRuns : Obligations.StepFetchesDecodesAndRuns := by
  unfold Obligations.StepFetchesDecodesAndRuns
  refine fun s => ⟨fun hrun i h => step_of_recognized hrun h,
    fun hrun op h => ⟨_, step_of_unrecognized hrun h⟩, fun hhalt t h => ?_⟩
  rw [step_of_halted hhalt] at h
  cases h

/-- Settles O7: a byte with no row is unrecognized whatever follows it, and the step halts. -/
theorem unrecognizedOpcodeHalts : Obligations.UnrecognizedOpcodeHalts := by
  unfold Obligations.UnrecognizedOpcodeHalts
  exact fun s hrun hop => step_of_unrecognized hrun (decodeBytes_eq_unrecognized_iff.mpr hop)

/-! RECOGNIZED_SET (R76). -/

theorem decodeIn_of_notMem {set : List Byte} {op : Byte} (h : set.contains op = false) (b1 b2 : Byte) :
    decodeIn set op b1 b2 = .unrecognized op := by
  rw [decodeIn, h]
  rfl

theorem decodeIn_of_unrecognizedBytes {op : Byte} (h : op ∈ unrecognizedBytes) (set : List Byte) (b1 b2 : Byte) :
    decodeIn set op b1 b2 = .unrecognized op := by
  rw [decodeIn, decodeTable_eq_none_iff.mpr h]
  exact ite_self _

theorem decodeIn_of_recognized {set : List Byte} {op b1 b2 : Byte} {i : Instr} (hset : set.contains op = true)
    (h : decodeBytes op b1 b2 = .recognized i) : decodeIn set op b1 b2 = .recognized i := by
  rw [decodeIn, if_pos hset, decodeBytes_eq_recognized_iff.mp h]

/-- Settles O57: the set or the table decides what the fetched bytes decode to, and that what the step does. -/
theorem recognizedSetDecidesHalting : Obligations.RecognizedSetDecidesHalting := by
  unfold Obligations.RecognizedSetDecidesHalting
  refine ⟨fun c s hrun => ⟨fun hop => ?_, fun i hset hi => ?_⟩, fun s => ⟨rfl, rfl⟩⟩
  · obtain hset | hrow := hop
    · exact stepWith_of_unrecognized hrun (decodeIn_of_notMem hset _ _)
    · exact stepWith_of_unrecognized hrun (decodeIn_of_unrecognizedBytes hrow _ _ _)
  · exact stepWith_of_recognized hrun (decodeIn_of_recognized hset hi)

/-! The host (R245). -/

/-- R234: a step request on a halted core does nothing. -/
theorem act_step_of_halted {s : State} (hhalt : s.halted = true) (c : Config) : act .step s c = .next s := by
  rw [act, if_pos hhalt]

/-- Settles O8: a host write is one write of the RAM, and a halted core answers by `step_of_halted`. -/
theorem haltedIsTerminal : Obligations.HaltedIsTerminal := by
  unfold Obligations.HaltedIsTerminal
  exact ⟨fun s addr v => ⟨s.mem.write addr v, rfl, fun b => Memory.read_write s.mem addr b v⟩,
    fun s hhalt => ⟨step_of_halted hhalt, act_step_of_halted hhalt _, _, rfl, rfl, rfl⟩⟩

/-- Settles O13: the values that `hostReset` writes out, with the vector's bytes in a number. -/
theorem resetValues : Obligations.ResetValues := by
  unfold Obligations.ResetValues
  refine ⟨fun s => ⟨_, rfl, rfl, rfl, rfl, rfl, ?_, rfl, rfl, rfl, rfl, rfl, rfl, rfl, rfl⟩, rfl⟩
  rw [hostReset_pc, ofHiLo_toNat, Nat.mul_comm]
  rfl

/-- Settles O59: by induction over the session: a step request does nothing and a write changes the bus alone. -/
theorem onlyResetLeavesHalted : Obligations.OnlyResetLeavesHalted := by
  unfold Obligations.OnlyResetLeavesHalted
  intro hs
  induction hs with
  | nil => exact fun s _ _ => ⟨s, rfl, rfl⟩
  | cons h hs ih =>
    intro s hhalt hnoReset
    obtain ⟨hne, hrest⟩ := not_or.mp (List.mem_cons.not.mp hnoReset)
    cases h with
    | reset => exact absurd rfl hne
    | step =>
      obtain ⟨t, ht, hkept⟩ := ih s hhalt hrest
      refine ⟨t, ?_, hkept⟩
      rw [actAll, act_step_of_halted hhalt]
      exact ht
    | write addr v => exact ih (hostWrite addr v s) hhalt hrest

end Sys2Proof.Machine
end

