-- ==== Sys2Proof/Proofs/BusProgram.lean ====
section
/-! Every step as a program of byte accesses (20_memory.md R54, R56): what is read decides how it goes on, and it ends
in the registers and flags it leaves. The model's `execWith`, `stepWith` and `busAccesses` are the result and the access
sequence of one such program (`execWith_eq_run`, `stepWith_eq_run`, `busAccesses_eq_accesses`), so that what holds of
every program is proved once, by induction over it. -/

namespace Sys2Proof.Machine

/-- A computation that reads and writes bus cells and ends in a core; the bus contents of that core do not count. -/
inductive BusProgram where
  | done (core : State)
  | read (addr : Addr) (next : Byte → BusProgram)
  | write (addr : Addr) (v : Byte) (rest : BusProgram)

/-- The registers, the flags and the halt of a state, with nothing of its bus. -/
def State.core (s : State) : State := { s with mem := Memory.blank }

namespace BusProgram

/-- The state a program ends in on the bus `b` holding `m`. -/
def run (b : Bus) : BusProgram → Memory → State
  | done core, m => { core with mem := m }
  | read a k, m => run b (k (b.read m a)) (b.afterRead m a)
  | write a v p, m => run b p (b.write m a v)

/-- The accesses a program makes on the bus `b` holding `m`. -/
def accesses (b : Bus) : BusProgram → Memory → List BusAccess
  | done _, _ => []
  | read a k, m => .read a (b.read m a) :: accesses b (k (b.read m a)) (b.afterRead m a)
  | write a v p, m => .write a v :: accesses b p (b.write m a v)

/-! The pieces that the instructions are made of. -/

/-- Two reads of a 16-bit value, the low byte first (R56). -/
def readWord (lo hi : Addr) (k : Addr → BusProgram) : BusProgram :=
  .read lo fun l => .read hi fun h => k (ofHiLo h l)

/-- R170: `push8`. -/
def push (v : Byte) (s : State) (k : State → BusProgram) : BusProgram :=
  .write (stackAddr s.sp) v (k (s.setSp (s.sp - 1)))

/-- R172: `push16`. -/
def pushWord (w : Addr) (s : State) (k : State → BusProgram) : BusProgram :=
  push (hiByte w) s fun s => push (loByte w) s k

/-- R171: `pop8`. -/
def pop (s : State) (k : Byte → State → BusProgram) : BusProgram :=
  .read (stackAddr (s.sp + 1)) fun v => k v (s.setSp (s.sp + 1))

/-- R173: `pop16`. -/
def popWord (s : State) (k : Addr → State → BusProgram) : BusProgram :=
  pop s fun lo s => pop s fun hi s => k (ofHiLo hi lo) s

/-- R90: `resolve`. -/
def resolved (m : Mode) (s : State) (k : Operand → BusProgram) : BusProgram :=
  match m with
  | .mem (.izx a1) => readWord (zext16 (a1 + s.x)) (zext16 (a1 + s.x + 1)) fun p => k (.mem p)
  | .mem (.izy a1) => readWord (zext16 a1) (zext16 (a1 + 1)) fun p => k (.mem (p + zext16 s.y))
  | .ind w => readWord w (ofHiLo (hiByte w) (loByte w + 1)) fun t => k (.target t)
  | m => k (resolve m s)

/-- R104: the operand value of a read-class instruction. -/
def withValue (o : Operand) (k : Byte → BusProgram) : BusProgram :=
  match o with
  | .imm v => k v
  | .mem ea => .read ea k
  | .none | .acc | .rel _ | .target _ => k 0

/-- R113 to R115: the write of a store. -/
def store (o : Operand) (v : Byte) (p : BusProgram) : BusProgram :=
  match o with
  | .mem ea => .write ea v p
  | .none | .imm _ | .acc | .rel _ | .target _ => p

/-- Where JMP and JSR go (R200, R201). -/
def target (o : Operand) : Addr :=
  match o with
  | .mem ea => ea
  | .target t => t
  | .none | .imm _ | .acc | .rel _ => 0

/-- R131, R134, R135: what the adder leaves. -/
def added (s : State) (m : Byte) : State :=
  (((s.setA (adc s.a m s.flagC).value).setC (adc s.a m s.flagC).c).setV (adc s.a m s.flagC).v).setNZ
    (adc s.a m s.flagC).value

/-- R132: what a compare of `r` leaves. -/
def compared (s : State) (r m : Byte) : State :=
  { s with flagC := (cmp r m).c, flagZ := (cmp r m).z, flagN := (cmp r m).n }

/-- R133: what BIT leaves. -/
def bitTested (s : State) (m : Byte) : State :=
  { s with flagZ := (bitTest s.a m).z, flagV := (bitTest s.a m).v, flagN := (bitTest s.a m).n }

/-- R180: what TXS leaves, for either value of TXS_SETS_NZ. -/
def stackPointerSet (s : State) (setsNz : Bool) : State :=
  { s with
    sp := s.x
    flagN := if setsNz then signOf s.x else s.flagN
    flagZ := if setsNz then zeroOf s.x else s.flagZ }

/-- R191: what a branch leaves. -/
def branched (s : State) (cond : Bool) (o : Operand) : State :=
  match o with
  | .rel d => s.setPc (if cond then s.pc + 2 + sext16 d else s.pc + 2)
  | .none | .imm _ | .acc | .mem _ | .target _ => s

/-- A read-class instruction: `load` says what its operand value does to the registers (R104). -/
def reading (o : Operand) (len : Nat) (load : Byte → State) : BusProgram :=
  withValue o fun v => .done ((load v).advance len)

/-- R154 to R157: a shift or rotate of the handle `o` by `f`: one read and one write of a cell (R105). -/
def shifting (o : Operand) (len : Nat) (s : State) (f : Byte → ShiftResult) : BusProgram :=
  match o with
  | .acc => .done ((((s.setA (f s.a).value).setC (f s.a).c).setNZ (f s.a).value).advance len)
  | .mem ea => .read ea fun old =>
      .write ea (f old).value (.done (((s.setC (f old).c).setNZ (f old).value).advance len))
  | .none | .imm _ | .rel _ | .target _ => .done (s.advance len)

/-- R158, R159: an increment or decrement of the cell `o` by `f`. -/
def modifying (o : Operand) (len : Nat) (s : State) (f : Byte → Byte) : BusProgram :=
  match o with
  | .mem ea => .read ea fun old => .write ea (f old) (.done ((s.setNZ (f old)).advance len))
  | .none | .imm _ | .acc | .rel _ | .target _ => .done (s.advance len)

/-- The execution of an instruction with the resolved operand `o`, from the core `s`, under the parameters `c`. -/
def execute (mn : Mnemonic) (o : Operand) (len : Nat) (c : Config) (s : State) : BusProgram :=
  match mn with
  | .lda => reading o len fun v => (s.setA v).setNZ v
  | .ldx => reading o len fun v => (s.setX v).setNZ v
  | .ldy => reading o len fun v => (s.setY v).setNZ v
  | .and => reading o len fun v => (s.setA (s.a &&& v)).setNZ (s.a &&& v)
  | .ora => reading o len fun v => (s.setA (s.a ||| v)).setNZ (s.a ||| v)
  | .eor => reading o len fun v => (s.setA (s.a ^^^ v)).setNZ (s.a ^^^ v)
  | .adc => reading o len fun v => added s v
  | .sbc => reading o len fun v => added s (v ^^^ 0xFF)
  | .cmp => reading o len (compared s s.a)
  | .cpx => reading o len (compared s s.x)
  | .cpy => reading o len (compared s s.y)
  | .bit => reading o len (bitTested s)
  | .sta => store o s.a (.done (s.advance len))
  | .stx => store o s.x (.done (s.advance len))
  | .sty => store o s.y (.done (s.advance len))
  | .asl => shifting o len s asl
  | .lsr => shifting o len s lsr
  | .rol => shifting o len s fun old => rol old s.flagC
  | .ror => shifting o len s fun old => ror old s.flagC
  | .inc => modifying o len s fun old => old + 1
  | .dec => modifying o len s fun old => old - 1
  | .tax => .done (((s.setX s.a).setNZ s.a).advance len)
  | .tay => .done (((s.setY s.a).setNZ s.a).advance len)
  | .txa => .done (((s.setA s.x).setNZ s.x).advance len)
  | .tya => .done (((s.setA s.y).setNZ s.y).advance len)
  | .tsx => .done (((s.setX s.sp).setNZ s.sp).advance len)
  | .inx => .done (((s.setX (s.x + 1)).setNZ (s.x + 1)).advance len)
  | .iny => .done (((s.setY (s.y + 1)).setNZ (s.y + 1)).advance len)
  | .dex => .done (((s.setX (s.x - 1)).setNZ (s.x - 1)).advance len)
  | .dey => .done (((s.setY (s.y - 1)).setNZ (s.y - 1)).advance len)
  | .txs => .done ((stackPointerSet s c.txsSetsNz).advance len)
  | .pha => push s.a s fun s => .done (s.advance len)
  | .php => push (packStatus s) s fun s => .done (s.advance len)
  | .pla => pop s fun v s => .done (((s.setA v).setNZ v).advance len)
  | .plp => pop s fun p s => .done ((unpackStatus p s).advance len)
  | .bpl => .done (branched s (!s.flagN) o)
  | .bmi => .done (branched s s.flagN o)
  | .bvc => .done (branched s (!s.flagV) o)
  | .bvs => .done (branched s s.flagV o)
  | .bcc => .done (branched s (!s.flagC) o)
  | .bcs => .done (branched s s.flagC o)
  | .bne => .done (branched s (!s.flagZ) o)
  | .beq => .done (branched s s.flagZ o)
  | .jmp => .done (s.setPc (target o))
  | .jsr => pushWord (s.pc + 2) s fun s => .done (s.setPc (target o))
  | .rts => popWord s fun w s => .done (s.setPc (w + 1))
  | .brk => pushWord (s.pc + 2) s fun s => push (packStatus s) s fun s =>
      readWord c.brkVector (c.brkVector + 1) fun w => .done ((s.setI true).setPc w)
  | .rti => pop s fun p s => popWord (unpackStatus p s) fun w s => .done (s.setPc w)
  | .clc => .done ((s.setC false).advance len)
  | .sec => .done ((s.setC true).advance len)
  | .cli => .done ((s.setI false).advance len)
  | .sei => .done ((s.setI true).advance len)
  | .clv => .done ((s.setV false).advance len)
  | .cld => .done ((s.setD false).advance len)
  | .sed => .done ((s.setD true).advance len)
  | .nop => .done (s.advance len)

/-- An instruction: resolve, then execute (R34). -/
def ofInstr (c : Config) (i : Instr) (s : State) : BusProgram :=
  resolved i.mode s fun o => execute i.mnemonic o i.length c s

/-- What a step does once the fetched bytes are decoded: halt or run (R231). -/
def ofDecoded (c : Config) (d : Decoded) (s : State) : BusProgram :=
  match d with
  | .unrecognized op => .done (raiseUnrecognized op s)
  | .recognized i => ofInstr c i s

/-- A step of a running core: fetch, decode, and halt or run (R34). -/
def ofStep (c : Config) (s : State) : BusProgram :=
  .read s.pc fun op => .read (s.pc + 1) fun b1 => .read (s.pc + 2) fun b2 =>
    ofDecoded c (decodeIn c.recognizedSet op b1 b2) s

end BusProgram

open BusProgram

/-! The model is the run and the access sequence of these programs. Each arm of `execWith` computes to the run of its
program, with the operand, the length and the pieces written out. -/

theorem execWith_eq_run (c : Config) (i : Instr) (s : State) :
    execWith c i s = .next ((ofInstr c i s.core).run c.bus s.mem) := by
  cases i
  case txs => rcases c with ⟨set, _ | _, vector, bus⟩ <;> rfl
  all_goals rfl

theorem exec_eq_run (i : Instr) (s : State) :
    exec i s = .next ((ofInstr standardConfig i s.core).run ramBus s.mem) :=
  (execWith_standard i s).symm.trans (execWith_eq_run standardConfig i s)

theorem eq_run_of_exec {i : Instr} {s t : State} (h : exec i s = .next t) :
    t = (ofInstr standardConfig i s.core).run ramBus s.mem :=
  Host.Outcome.next.inj (h.symm.trans (exec_eq_run i s))

theorem executeAccesses_eq_accesses (c : Config) (i : Instr) (s : State) :
    resolverAccesses i.mode s c.bus ++ executeAccesses i s c = (ofInstr c i s.core).accesses c.bus s.mem := by
  cases i <;> rfl

theorem stepWith_eq_run {c : Config} {s : State} (hrun : s.halted = false) :
    stepWith c s = .next ((ofStep c s.core).run c.bus s.mem) := by
  have hfetch : (ofStep c s.core).run c.bus s.mem = (ofDecoded c (decodeIn c.recognizedSet (fetch s c.bus).op
      (fetch s c.bus).arg1 (fetch s c.bus).arg2) s.core).run c.bus (afterFetch s c.bus).mem := rfl
  rw [stepWith, if_neg (by simp [hrun]), hfetch]
  cases decodeIn c.recognizedSet (fetch s c.bus).op (fetch s c.bus).arg1 (fetch s c.bus).arg2 with
  | unrecognized op => rfl
  | recognized i => exact execWith_eq_run c i (afterFetch s c.bus)

theorem busAccesses_eq_accesses {c : Config} {s : State} (hrun : s.halted = false) :
    busAccesses s c = (ofStep c s.core).accesses c.bus s.mem := by
  have hfetch : (ofStep c s.core).accesses c.bus s.mem = fetchAccesses s c.bus ++
      (ofDecoded c (decodeIn c.recognizedSet (fetch s c.bus).op (fetch s c.bus).arg1 (fetch s c.bus).arg2)
        s.core).accesses c.bus (afterFetch s c.bus).mem := rfl
  rw [busAccesses, if_neg (by simp [hrun]), hfetch]
  cases decodeIn c.recognizedSet (fetch s c.bus).op (fetch s c.bus).arg1 (fetch s c.bus).arg2 with
  | unrecognized op => exact (List.append_nil _).symm
  | recognized i =>
    exact (List.append_assoc _ _ _).trans
      (congrArg (fetchAccesses s c.bus ++ ·) (executeAccesses_eq_accesses c i (afterFetch s c.bus)))

/-- A step with a next state started on a running core and is the run of its program. -/
theorem eq_run_of_stepWith {c : Config} {s t : State} (h : stepWith c s = .next t) :
    s.halted = false ∧ t = (ofStep c s.core).run c.bus s.mem := by
  obtain ⟨hrun, -⟩ := stepWith_cases h
  exact ⟨hrun, Host.Outcome.next.inj (h.symm.trans (stepWith_eq_run hrun))⟩

/-! What holds of every program. -/

namespace BusProgram

/-- Replaying the accesses of a program gives the bus it leaves, and its reads answer what the bus then gives. -/
theorem replay_accesses (b : Bus) (p : BusProgram) (m : Memory) :
    replay (p.accesses b m) m b = (p.run b m).mem ∧ readsAgree (p.accesses b m) m b = true := by
  induction p generalizing m with
  | done core => exact ⟨rfl, rfl⟩
  | read a k ih =>
    obtain ⟨hmem, hreads⟩ := ih (b.read m a) (b.afterRead m a)
    refine ⟨hmem, ?_⟩
    rw [accesses, readsAgree, beq_self_eq_true, Bool.true_and, hreads]
  | write a v p ih => exact ih (b.write m a v)

/-- A program that makes the same accesses on two buses ends in the same core. -/
theorem run_core_of_accesses_eq {b b' : Bus} (p : BusProgram) {m m' : Memory}
    (h : p.accesses b' m' = p.accesses b m) : (p.run b' m').core = (p.run b m).core := by
  induction p generalizing m m' with
  | done core => rfl
  | read a k ih =>
    rw [accesses, accesses, List.cons_eq_cons, BusAccess.read.injEq] at h
    obtain ⟨⟨-, hv⟩, htail⟩ := h
    rw [hv] at htail
    rw [run, run, hv]
    exact ih _ htail
  | write a v p ih =>
    rw [accesses, accesses, List.cons_eq_cons] at h
    exact ih h.2

/-- On RAM a program makes the same accesses on a bus that agrees with the first at every cell it reads there. -/
theorem accesses_eq_of_reads_agree (p : BusProgram) {m m' : Memory}
    (h : ∀ a v, .read a v ∈ p.accesses ramBus m → m'.read a = m.read a) :
    p.accesses ramBus m' = p.accesses ramBus m := by
  induction p generalizing m m' with
  | done core => rfl
  | read a k ih =>
    have hv : m'.read a = m.read a := h a _ (.head _)
    have htail := ih (m.read a) (m := m) (m' := m') fun a' v' hmem => h a' v' (.tail _ hmem)
    simp only [accesses, ramBus_read, ramBus_afterRead, hv, htail]
  | write a v p ih =>
    have htail := ih (m := m.write a v) (m' := m'.write a v) fun a' v' hmem => by
      rw [Memory.read_write, Memory.read_write, h a' v' (.tail _ hmem)]
    simp only [accesses, ramBus_write, htail]

end BusProgram

end Sys2Proof.Machine
end

