-- ==== Sys2Proof/Proofs/Accesses.lean ====
section
/-! The bus accesses of a step (20_memory.md R56 to R61) and what the core sees of its bus: the access sequence explains
the memory, and nothing outside it matters. -/

namespace Sys2Proof.Machine

open Sys2Proof.Claims BusProgram

/-- R56 step 1: a step begins with the three fetch reads. -/
theorem busAccesses_eq_fetchAccesses_append {c : Config} {s : State} (hrun : s.halted = false) :
    ∃ rest, busAccesses s c = fetchAccesses s c.bus ++ rest := by
  rw [busAccesses, if_neg (by simp [hrun])]
  split
  · exact ⟨[], (List.append_nil _).symm⟩
  · exact ⟨_, List.append_assoc _ _ _⟩

/-- Settles O54: a step is the run of a program and its accesses are the program's, which `replay_accesses` replays. -/
theorem busTraceExplainsMemory : Obligations.BusTraceExplainsMemory := by
  unfold Obligations.BusTraceExplainsMemory
  have replayed (c : Config) (s t : State) (h : stepWith c s = .next t) :
      replay (busAccesses s c) s.mem c.bus = t.mem ∧ readsAgree (busAccesses s c) s.mem c.bus = true := by
    obtain ⟨hrun, rfl⟩ := eq_run_of_stepWith h
    rw [busAccesses_eq_accesses hrun]
    exact replay_accesses c.bus _ s.mem
  refine ⟨fun c s t h => ?_, fun s t h => ?_⟩
  · obtain ⟨hmem, hreads⟩ := replayed c s t h
    obtain ⟨rest, hrest⟩ := busAccesses_eq_fetchAccesses_append (c := c) (eq_run_of_stepWith h).1
    exact ⟨hmem, hreads, _, _, _, rest, hrest⟩
  · have h' := (stepWith_standard s).trans h
    obtain ⟨hmem, hreads⟩ := replayed standardConfig s t h'
    obtain ⟨rest, hrest⟩ := busAccesses_eq_fetchAccesses_append (c := standardConfig) (eq_run_of_stepWith h').1
    refine ⟨hmem, hreads, ?_⟩
    rw [hrest]
    rfl

/-- A state with the registers of `t` is `t` with another bus. -/
theorem withMem_eq_of_core_eq {t u : State} (h : u.core = t.core) : { u with mem := t.mem } = t :=
  congrArg (fun r : State => { r with mem := t.mem }) h

/-- Settles O60: the step over the other bus is a run of the same program, with the same accesses. -/
theorem coreSeesOnlyItsAccesses : Obligations.CoreSeesOnlyItsAccesses := by
  unfold Obligations.CoreSeesOnlyItsAccesses
  intro c bus s t m h hacc
  obtain ⟨hrun, rfl⟩ := eq_run_of_stepWith h
  have hrun' : { s with mem := m }.halted = false := hrun
  rw [busAccesses_eq_accesses hrun, busAccesses_eq_accesses hrun'] at hacc
  exact ⟨_, stepWith_eq_run hrun', withMem_eq_of_core_eq (run_core_of_accesses_eq _ hacc)⟩

/-! Plain RAM: what the writes of an access sequence leave in the cells. -/

/-- The bytes that a list of accesses writes, with their addresses, in order. -/
def writesOf (l : List BusAccess) : List (Addr × Byte) :=
  l.filterMap fun
    | .read _ _ => none
    | .write a v => some (a, v)

theorem mem_writesOf {l : List BusAccess} {a : Addr} {v : Byte} : (a, v) ∈ writesOf l ↔ .write a v ∈ l := by
  rw [writesOf, List.mem_filterMap]
  constructor
  · rintro ⟨acc, hacc, h⟩
    cases acc <;> cases h
    exact hacc
  · exact fun h => ⟨_, h, rfl⟩

/-- R52: on RAM a cell holds the last byte written to it, or what it held. -/
theorem read_replay (l : List BusAccess) (m : Memory) (a : Addr) : (replay l m).read a = latest (writesOf l) m a := by
  induction l generalizing m with
  | nil => rfl
  | cons acc l ih =>
    cases acc with
    | read a' v => exact ih m
    | write a' v =>
      refine (ih (m.write a' v)).trans ?_
      simp only [latest, writesOf, List.filterMap_cons, List.foldl_cons, Memory.read_write, eq_comm (a := a)]

/-- A cell outside the stored addresses holds what it held. -/
theorem latest_of_notMem {stored : List (Addr × Byte)} {a : Addr} (h : a ∉ stored.map Prod.fst) (m : Memory) :
    latest stored m a = m.read a := by
  rw [latest]
  generalize m.read a = v
  induction stored generalizing v with
  | nil => rfl
  | cons p stored ih =>
    rw [List.map_cons, List.mem_cons, not_or] at h
    rw [List.foldl_cons, if_neg (Ne.symm h.1)]
    exact ih h.2 v

/-- What a stored cell holds does not depend on what it held. -/
theorem latest_of_mem {stored : List (Addr × Byte)} {a : Addr} (h : a ∈ stored.map Prod.fst) (m m' : Memory) :
    latest stored m a = latest stored m' a := by
  rw [latest, latest]
  generalize m.read a = v, m'.read a = v'
  induction stored generalizing v v' with
  | nil => cases h
  | cons p stored ih =>
    rw [List.foldl_cons, List.foldl_cons]
    by_cases hp : p.1 = a
    · rw [if_pos hp, if_pos hp]
    · rw [if_neg hp, if_neg hp]
      exact ih ((List.mem_cons.mp h).resolve_left (Ne.symm hp)) v v'

theorem read_run (p : BusProgram) (m : Memory) (a : Addr) :
    (p.run ramBus m).mem.read a = latest (writesOf (p.accesses ramBus m)) m a := by
  rw [← (replay_accesses ramBus p m).1, read_replay]

/-- The core after a program and the cells it writes depend on no cell it does not read; every other cell is kept. -/
theorem run_of_reads_agree (p : BusProgram) {m m' : Memory}
    (h : ∀ a v, .read a v ∈ p.accesses ramBus m → m'.read a = m.read a) :
    (p.run ramBus m').core = (p.run ramBus m).core ∧
      (∀ a v, .write a v ∈ p.accesses ramBus m → (p.run ramBus m').mem.read a = (p.run ramBus m).mem.read a) ∧
      ∀ a, (∀ v, .write a v ∉ p.accesses ramBus m) → (p.run ramBus m').mem.read a = m'.read a := by
  have hacc := accesses_eq_of_reads_agree p h
  refine ⟨run_core_of_accesses_eq p hacc, fun a v hw => ?_, fun a hw => ?_⟩
  · rw [read_run, read_run, hacc]
    exact latest_of_mem (List.mem_map_of_mem (mem_writesOf.mpr hw)) m' m
  · rw [read_run, hacc]
    refine latest_of_notMem (fun hmem => ?_) m'
    obtain ⟨⟨_, v⟩, hv, rfl⟩ := List.mem_map.mp hmem
    exact hw v (mem_writesOf.mp hv)

/-- Settles O55: `run_of_reads_agree`, for the program of the step. -/
theorem onlyAccessedCellsMatter : Obligations.OnlyAccessedCellsMatter := by
  unfold Obligations.OnlyAccessedCellsMatter
  intro s t m h hagree
  rw [← stepWith_standard] at h
  obtain ⟨hrun, rfl⟩ := eq_run_of_stepWith h
  have hrun' : { s with mem := m }.halted = false := hrun
  rw [busAccesses_eq_accesses hrun] at hagree ⊢
  obtain ⟨hcore, hcells⟩ := run_of_reads_agree _ hagree
  exact ⟨_, (stepWith_standard _).symm.trans (stepWith_eq_run hrun'), withMem_eq_of_core_eq hcore, hcells⟩

/-! The bytes an instruction stores. -/

theorem writesOf_accesses (i : Instr) (s : State) :
    writesOf ((ofInstr standardConfig i s.core).accesses ramBus s.mem) = storedBytes i s := by
  cases i
  case brk => exact congrArg (fun p => [_, _, (stackAddr p, packStatus s)]) (sp_sub_one_sub_one s.sp)
  all_goals rfl

theorem storedAddresses_eq (i : Instr) (s : State) : storedAddresses i s = (storedBytes i s).map Prod.fst := by
  cases i <;> rfl

end Sys2Proof.Machine
end

