-- ==== Sys2Proof/Proofs/Frames.lean ====
section
/-! What an instruction leaves unchanged: the registers and flags outside the spec's writers (10_state.md R22, R23,
R27), the halt (60_exceptions.md R232) and the cells it does not store to (20_memory.md R56). -/

namespace Sys2Proof.Machine

open Sys2Proof.Claims BusProgram

namespace BusProgram

/-- Every core that a program can end in, whatever bytes it reads, has the property. -/
def Ends (P : State → Prop) : BusProgram → Prop
  | done core => P core
  | read _ k => ∀ v, (k v).Ends P
  | write _ _ p => p.Ends P

theorem run_of_ends {P : State → Prop} {p : BusProgram} (h : p.Ends P) (b : Bus) (m : Memory) :
    ∃ core, P core ∧ p.run b m = { core with mem := (p.run b m).mem } := by
  induction p generalizing m with
  | done core => exact ⟨core, h, rfl⟩
  | read a k ih => exact ih _ (h _) _
  | write a v p ih => exact ih h _

theorem ends_resolved {P : State → Prop} {m : Mode} {s : State} {k : Operand → BusProgram}
    (h : ∀ o, (o = .acc → m = .acc) → (k o).Ends P) : (resolved m s k).Ends P := by
  unfold resolved
  split
  · exact fun l hi => h _ nofun
  · exact fun l hi => h _ nofun
  · exact fun l hi => h _ nofun
  · refine h _ fun hacc => ?_
    cases m <;> cases hacc
    rfl

theorem ends_reading {P : State → Prop} {o : Operand} {len : Nat} {load : Byte → State}
    (h : ∀ v, P ((load v).advance len)) : (reading o len load).Ends P := by
  cases o
  case mem => exact fun v => h v
  all_goals exact h _

theorem ends_store {P : State → Prop} {o : Operand} {v : Byte} {s : State} (h : P s) :
    (store o v (.done s)).Ends P := by
  cases o <;> exact h

theorem ends_shifting {P : State → Prop} {o : Operand} {len : Nat} {s : State} {f : Byte → ShiftResult}
    (hnone : P (s.advance len)) (hmem : ∀ old, P (((s.setC (f old).c).setNZ (f old).value).advance len))
    (hacc : o = .acc → P ((((s.setA (f s.a).value).setC (f s.a).c).setNZ (f s.a).value).advance len)) :
    (shifting o len s f).Ends P := by
  cases o
  case mem => exact hmem
  case acc => exact hacc rfl
  all_goals exact hnone

theorem ends_modifying {P : State → Prop} {o : Operand} {len : Nat} {s : State} {f : Byte → Byte}
    (hnone : P (s.advance len)) (hmem : ∀ v, P ((s.setNZ v).advance len)) : (modifying o len s f).Ends P := by
  cases o
  case mem => exact fun old => hmem _
  all_goals exact hnone

end BusProgram

/-- `t` differs from `s` only in what the spec's tables (10_state.md R22, R23, R27) list the mnemonic `mn` as a writer
of, for an instruction of `len` bytes, whose operand is the accumulator if `acc` holds. -/
structure ChangesOnlyListed (mn : Mnemonic) (acc : Prop) (len : Nat) (s t : State) : Prop where
  halted : t.halted = s.halted
  faultRecord : t.faultRecord = s.faultRecord
  pc : mn ∉ pcWriters → t.pc = s.pc + BitVec.ofNat 16 len
  a : t.a ≠ s.a → mn ∈ [.lda, .txa, .tya, .pla, .and, .ora, .eor, .adc, .sbc] ∨
    (mn ∈ [.asl, .lsr, .rol, .ror] ∧ acc)
  x : t.x ≠ s.x → mn ∈ [.ldx, .tax, .tsx, .inx, .dex]
  y : t.y ≠ s.y → mn ∈ [.ldy, .tay, .iny, .dey]
  sp : t.sp ≠ s.sp → mn ∈ [.txs, .pha, .php, .pla, .plp, .jsr, .rts, .brk, .rti]
  flagC : t.flagC ≠ s.flagC →
    mn ∈ [.adc, .sbc, .cmp, .cpx, .cpy, .asl, .lsr, .rol, .ror, .clc, .sec, .plp, .rti]
  flagZ : t.flagZ ≠ s.flagZ → mn ∈ nzWriters
  flagN : t.flagN ≠ s.flagN → mn ∈ nzWriters
  flagV : t.flagV ≠ s.flagV → mn ∈ [.adc, .sbc, .bit, .clv, .plp, .rti]
  flagI : t.flagI ≠ s.flagI → mn ∈ [.sei, .cli, .brk, .plp, .rti]
  flagD : t.flagD ≠ s.flagD → mn ∈ [.sed, .cld]

/-- R22, R23, R25, R27: the execution of a mnemonic changes only what the tables list, whatever it reads. -/
theorem execute_ends {acc : Prop} (mn : Mnemonic) {o : Operand} (hacc : o = .acc → acc) (len : Nat) (c : Config)
    (s : State) : (execute mn o len c s).Ends (ChangesOnlyListed mn acc len s) := by
  cases mn
  case lda | ldx | ldy | and | ora | eor | adc | sbc | cmp | cpx | cpy | bit =>
    refine ends_reading fun v => ?_
    constructor <;> simp [added, compared, bitTested, nzWriters]
  case sta | stx | sty =>
    refine ends_store ?_
    constructor <;> simp
  case asl | lsr | rol | ror =>
    rw [execute]
    refine ends_shifting ?neither (fun old => ?cell) (fun ho => ?accumulator)
    case neither => constructor <;> simp
    case cell => constructor <;> simp [nzWriters]
    case accumulator => constructor <;> simp [nzWriters, hacc ho]
  case inc | dec =>
    refine ends_modifying ?_ (fun old => ?_) <;> constructor <;> simp [nzWriters]
  case bpl | bmi | bvc | bvs | bcc | bcs | bne | beq =>
    cases o <;> constructor <;> simp [branched, pcWriters]
  all_goals
    simp only [execute, push, pushWord, pop, popWord, readWord, Ends]
    intros
    constructor <;> simp [stackPointerSet, nzWriters, pcWriters]

theorem exec_changesOnlyListed {i : Instr} {s t : State} (h : exec i s = .next t) :
    ChangesOnlyListed i.mnemonic (i.mode = .acc) i.length s t := by
  obtain rfl := eq_run_of_exec h
  have hends : (ofInstr standardConfig i s.core).Ends
      (ChangesOnlyListed i.mnemonic (i.mode = .acc) i.length s.core) :=
    ends_resolved fun o ho => execute_ends i.mnemonic ho i.length standardConfig s.core
  obtain ⟨core, hcore, hrun⟩ := run_of_ends hends ramBus s.mem
  rw [hrun]
  exact { hcore with }

/-- R232: every instruction has a next state. -/
theorem exists_exec_eq_next (i : Instr) (s : State) : ∃ t, exec i s = .next t :=
  ⟨_, exec_eq_run i s⟩

/-- Settles O9: an instruction is the run of a program, and no program's end changes `halted` or the fault record. -/
theorem recognizedInstructionsComplete : Obligations.RecognizedInstructionsComplete := by
  unfold Obligations.RecognizedInstructionsComplete
  intro i s
  obtain ⟨t, ht⟩ := exists_exec_eq_next i s
  have hframe := exec_changesOnlyListed ht
  exact ⟨t, ht, hframe.halted, hframe.faultRecord⟩

/-- Settles O49: the flags' part of the frame. -/
theorem flagsWrittenOnlyAsListed : Obligations.FlagsWrittenOnlyAsListed := by
  unfold Obligations.FlagsWrittenOnlyAsListed
  intro i s t h
  have hframe := exec_changesOnlyListed h
  exact ⟨hframe.flagC, hframe.flagZ, hframe.flagN, hframe.flagV, hframe.flagI, hframe.flagD⟩

/-- Settles O50: the registers' part of the frame. -/
theorem registersWrittenOnlyAsListed : Obligations.RegistersWrittenOnlyAsListed := by
  unfold Obligations.RegistersWrittenOnlyAsListed
  intro i s t h
  have hframe := exec_changesOnlyListed h
  exact ⟨hframe.a, hframe.x, hframe.y, hframe.sp⟩

/-! The cells. -/

/-- R52, R56: after an instruction a cell holds the last byte the instruction stored in it, or what it held. -/
theorem read_of_exec {i : Instr} {s t : State} (h : exec i s = .next t) (a : Addr) :
    t.mem.read a = latest (storedBytes i s) s.mem a := by
  obtain rfl := eq_run_of_exec h
  exact (read_run _ s.mem a).trans (congrArg (latest · s.mem a) (writesOf_accesses i s))

/-- Settles O51: a cell outside the stored addresses holds what it held, by `read_of_exec`. -/
theorem onlyStoredBytesChange : Obligations.OnlyStoredBytesChange := by
  unfold Obligations.OnlyStoredBytesChange
  intro i s t h b hb
  rw [storedAddresses_eq] at hb
  rw [read_of_exec h, latest_of_notMem hb]

/-- Settles O58: the fetch reads cells, which `read_of_exec` gives, and `PC` is in the frame. -/
theorem stepSeesTheLatestWrite : Obligations.StepSeesTheLatestWrite := by
  unfold Obligations.StepSeesTheLatestWrite
  intro s i hrun hdec
  obtain ⟨t, ht⟩ := exists_exec_eq_next i s
  exact ⟨t, (step_of_recognized hrun hdec).trans ht, (exec_changesOnlyListed ht).pc, read_of_exec ht _,
    read_of_exec ht _, read_of_exec ht _⟩

end Sys2Proof.Machine
end

