-- ==== Sys2Proof/Proofs/Invariant.lean ====
section
/-! The invariant of the machine (20_memory.md R50, 60_exceptions.md R231, R234): it holds after reset, every step and
every host action keep it; and the canonical form of the bus contents is canonical. -/

namespace Sys2Proof.Machine

open Sys2Proof.Claims Sys2Proof.Safety BusProgram

/-! Each way a state can change keeps the invariant. -/

theorem haltConsistent_of_running {s : State} (hrun : s.halted = false) (hrecord : s.faultRecord = none) :
    HaltConsistent s := by
  rw [HaltConsistent, if_neg (by simp [hrun])]
  exact hrecord

theorem inv_resetWith {m : Memory} (hm : m.wf = true) : Inv (State.resetWith m) :=
  ⟨hm, haltConsistent_of_running rfl rfl⟩

theorem inv_hostWrite {s : State} (hs : Inv s) (addr : Addr) (v : Byte) : Inv (hostWrite addr v s) := by
  obtain ⟨hwf, hhalt⟩ := hs
  exact ⟨Memory.wf_write s.mem addr v hwf, hhalt⟩

theorem inv_raiseUnrecognized {s : State} (hs : Inv s) {op : Byte} (hop : op ∈ unrecognizedBytes) :
    Inv (raiseUnrecognized op s) := by
  obtain ⟨hwf, -⟩ := hs
  refine ⟨hwf, ?_⟩
  rw [HaltConsistent, if_pos (raiseUnrecognized_halted s op)]
  exact ⟨op, rfl, fun _ _ => decodeBytes_eq_unrecognized_iff.mpr hop⟩

/-- On RAM a program only reads and writes, and a write keeps the canonical form. -/
theorem wf_run (p : BusProgram) {m : Memory} (hm : m.wf = true) : (p.run ramBus m).mem.wf = true := by
  induction p generalizing m with
  | done core => exact hm
  | read a k ih => exact ih _ hm
  | write a v p ih => exact ih (Memory.wf_write m a v hm)

theorem inv_of_exec {i : Instr} {s t : State} (hs : Inv s) (hrun : s.halted = false) (h : exec i s = .next t) :
    Inv t := by
  obtain ⟨hwf, hhalt⟩ := hs
  rw [HaltConsistent, if_neg (by simp [hrun])] at hhalt
  have hframe := exec_changesOnlyListed h
  refine ⟨?_, haltConsistent_of_running (hframe.halted.trans hrun) (hframe.faultRecord.trans hhalt)⟩
  obtain rfl := eq_run_of_exec h
  exact wf_run _ hwf

theorem inv_of_step {s t : State} (hs : Inv s) (h : step s = .next t) : Inv t := by
  obtain ⟨hrun, ⟨hop, rfl⟩ | ⟨i, -, hexec⟩⟩ := step_cases h
  · exact inv_raiseUnrecognized hs (decodeBytes_eq_unrecognized_iff.mp hop)
  · exact inv_of_exec hs hrun hexec

theorem inv_of_act {h : HostAction} {s t : State} (hs : Inv s) (hact : act h s = .next t) : Inv t := by
  cases h with
  | reset =>
    obtain rfl := Host.Outcome.next.inj hact
    exact inv_resetWith hs.1
  | step =>
    rw [act] at hact
    split at hact
    · obtain rfl := Host.Outcome.next.inj hact
      exact hs
    · exact inv_of_step hs ((stepWith_standard s).symm.trans hact)
  | write addr v =>
    obtain rfl := Host.Outcome.next.inj hact
    exact inv_hostWrite hs addr v

theorem inv_of_actAll {hs : List HostAction} {s t : State} (hinv : Inv s) (h : actAll hs s = .next t) : Inv t := by
  induction hs generalizing s with
  | nil =>
    obtain rfl := Host.Outcome.next.inj h
    exact hinv
  | cons action hs ih =>
    rw [actAll] at h
    split at h
    case h_1 u hu => exact ih (inv_of_act hinv hu) h
    case h_2 => cases h
    case h_3 => cases h

/-- Settles O10: an unrecognized byte makes the record with the halt, and an instruction keeps both halves. -/
theorem stepKeepsInvariant : Obligations.StepKeepsInvariant := by
  unfold Obligations.StepKeepsInvariant
  exact fun s t => inv_of_step

/-- Settles O11: by induction over the session, every action keeping the invariant. -/
theorem hostRunsKeepInvariant : Obligations.HostRunsKeepInvariant := by
  unfold Obligations.HostRunsKeepInvariant
  exact fun hs m t hm => inv_of_actAll (inv_resetWith hm)

/-- Settles O12: the reset core runs, with no record and the bus it was given. -/
theorem resetHasInvariant : Obligations.ResetHasInvariant := by
  unfold Obligations.ResetHasInvariant
  exact ⟨inv_resetWith Memory.wf_blank, fun m => inv_resetWith⟩

/-! The canonical form. -/

theorem Memory.wfFrom_cons {lo k : Nat} {v : Byte} {m : Memory} :
    Memory.wfFrom lo ((k, v) :: m) = true ↔ lo ≤ k ∧ k < 65536 ∧ v ≠ blankByte ∧ m.wfFrom (k + 1) = true := by
  simp only [Memory.wfFrom, Bool.and_eq_true, decide_eq_true_eq, and_assoc]

/-- Below the addresses it lists a canonical memory is blank. -/
theorem Memory.get_of_lt {m : Memory} {lo a : Nat} (hm : m.wfFrom lo = true) (ha : a < lo) : m.get a = blankByte := by
  induction m generalizing lo with
  | nil => rfl
  | cons cell m ih =>
    obtain ⟨k, v⟩ := cell
    obtain ⟨hlo, -, -, htail⟩ := Memory.wfFrom_cons.mp hm
    rw [Memory.get, if_neg (by omega)]
    exact ih htail (by omega)

@[simp] theorem Memory.get_head (k : Nat) (v : Byte) (m : Memory) : Memory.get ((k, v) :: m) k = v := if_pos rfl

/-- A cell that is not blank is not below the first one listed. -/
theorem Memory.head_le_of_get_ne_blank {lo k a : Nat} {v : Byte} {m : Memory}
    (hm : Memory.wfFrom lo ((k, v) :: m) = true) (ha : Memory.get ((k, v) :: m) a ≠ blankByte) : k ≤ a := by
  obtain ⟨-, htail⟩ := Memory.wfFrom_cons.mp hm
  by_contra hlt
  exact ha (Memory.get_of_lt (Memory.wfFrom_cons.mpr ⟨le_refl k, htail⟩) (by omega))

/-- Canonical memories that read the same are the same list: the first cell of either is not blank, so it is the first
of the other, and both rests are blank up to it. -/
theorem Memory.eq_of_get_eq {m m' : Memory} {lo : Nat} (hm : m.wfFrom lo = true) (hm' : m'.wfFrom lo = true)
    (h : ∀ a < 65536, m.get a = m'.get a) : m = m' := by
  induction m generalizing lo m' with
  | nil =>
    cases m' with
    | nil => rfl
    | cons cell' m' =>
      obtain ⟨k', v'⟩ := cell'
      obtain ⟨-, hk', hv', -⟩ := Memory.wfFrom_cons.mp hm'
      exact absurd ((h k' hk').trans (Memory.get_head k' v' m')).symm hv'
  | cons cell m ih =>
    obtain ⟨k, v⟩ := cell
    obtain ⟨-, hk, hv, htail⟩ := Memory.wfFrom_cons.mp hm
    have hhead := h k hk
    rw [Memory.get_head] at hhead
    cases m' with
    | nil => exact absurd hhead hv
    | cons cell' m' =>
      obtain ⟨k', v'⟩ := cell'
      obtain ⟨-, hk', hv', htail'⟩ := Memory.wfFrom_cons.mp hm'
      have hhead' := h k' hk'
      rw [Memory.get_head] at hhead'
      obtain rfl : k = k' := le_antisymm (Memory.head_le_of_get_ne_blank hm (hhead'.trans_ne hv'))
        (Memory.head_le_of_get_ne_blank hm' (hhead.symm.trans_ne hv))
      obtain rfl : v = v' := hhead.trans (Memory.get_head k v' m')
      refine congrArg ((k, v) :: ·) (ih htail htail' fun a ha => ?_)
      by_cases hle : a < k + 1
      · rw [Memory.get_of_lt htail hle, Memory.get_of_lt htail' hle]
      · have hcell := h a ha
        rwa [Memory.get, Memory.get, if_neg (by omega), if_neg (by omega)] at hcell

/-- Settles O56: `Memory.eq_of_get_eq`, for the whole 16-bit space. -/
theorem equalBusesAreEqualLists : Obligations.EqualBusesAreEqualLists := by
  unfold Obligations.EqualBusesAreEqualLists
  exact fun m m' hm hm' h => Memory.eq_of_get_eq hm hm' fun a ha => by
    simpa [Memory.read, Nat.mod_eq_of_lt ha] using h (BitVec.ofNat 16 a)

end Sys2Proof.Machine
end

