-- ==== Sys2Proof/Proofs/Stack.lean ====
section
/-! The stack in use (44_transfer_stack.md sections 1 to 3, 45_control.md section 2): pushes and pulls in any number,
the status byte, subroutines and the software break, each with its way back. -/

namespace Sys2Proof.Machine

open Sys2Proof.Claims

/-! Pulls and pushes (R170, R171). -/

/-- R182: PLA pulls A and sets N and Z from it. -/
theorem exec_pla (s : State) : exec .pla s = .next (({ s with
    sp := s.sp + 1
    a := s.mem.read (stackAddr (s.sp + 1)) }.setNZ (s.mem.read (stackAddr (s.sp + 1)))).advance 1) := rfl

/-- R184: PLP unpacks the pulled byte. -/
theorem exec_plp (s : State) : exec .plp s = .next (unpackStatus (s.mem.read (stackAddr (s.sp + 1)))
    { s with sp := s.sp + 1, pc := s.pc + 1 }) := rfl

/-- R171: the cell a pull reads, by its number. -/
theorem stackAddr_add_one_toNat (sp : Byte) : (stackAddr (sp + 1)).toNat = 256 + (sp.toNat + 1) % 256 := by
  rw [stackAddr_toNat, byte_add_one_toNat]

/-- Settles O32: PHA is one push of A, and PLA one pull, whose end `next_setNZ_advance` gives. -/
theorem accumulatorPushAndPull : Obligations.AccumulatorPushAndPull := by
  unfold Obligations.AccumulatorPushAndPull
  exact fun s => ⟨rfl, rfl, ⟨_, rfl, rfl, s.push8_read_toNat s.a⟩, _, stackAddr (s.sp + 1),
    stackAddr_add_one_toNat s.sp, rfl, (exec_pla s).trans (next_setNZ_advance _ _)⟩

/-- Settles O34: the pulled byte is unpacked bit by bit. -/
theorem statusPull : Obligations.StatusPull := by
  unfold Obligations.StatusPull
  exact fun s => ⟨rfl, _, stackAddr (s.sp + 1), stackAddr_add_one_toNat s.sp, rfl, exec_plp s⟩

/-- Settles O48: the byte PLP pulls is the one PHP pushed, and unpacking it undoes the packing. -/
theorem phpThenPlpRestores : Obligations.PhpThenPlpRestores := by
  unfold Obligations.PhpThenPlpRestores
  intro s c z i d v n
  refine ⟨_, _, exec_php s, exec_plp _, ?_⟩
  have hsp : s.sp - 1 + 1 = s.sp := BitVec.sub_add_cancel s.sp 1
  have hpc : s.pc + 1 + 1 = s.pc + 2 := BitVec.add_assoc s.pc 1 1
  have hpulled : (s.push8 (packStatus s)).mem.read (stackAddr s.sp) = packStatus s := by
    rw [State.push8_read, if_pos rfl]
  simp only [hsp, hpc, hpulled, unpackStatus_packStatus]

/-! Any number of pushes and pulls. -/

theorem pushedAll_append_singleton (bytes : List Byte) (v : Byte) (s : State) :
    pushedAll (bytes ++ [v]) s = (pushedAll bytes s).push8 v := by
  induction bytes generalizing s with
  | nil => rfl
  | cons w bytes ih => exact ih (s.push8 w)

theorem pushedAll_sp (bytes : List Byte) (s : State) :
    (pushedAll bytes s).sp = s.sp - BitVec.ofNat 8 bytes.length := by
  induction bytes generalizing s with
  | nil => exact (BitVec.sub_zero s.sp).symm
  | cons w bytes ih =>
    rw [pushedAll, ih, State.push8_sp, List.length_cons, Nat.add_comm, BitVec.ofNat_add, BitVec.sub_sub]
    rfl

theorem pulledAll_sp (n : Nat) (s : State) : (pulledAll n s).sp = s.sp + BitVec.ofNat 8 n := by
  induction n generalizing s with
  | zero => exact (BitVec.add_zero s.sp).symm
  | succ n ih =>
    rw [pulledAll, ih, State.pop8_sp, Nat.add_comm, BitVec.ofNat_add, BitVec.add_assoc]
    rfl

/-- What `n` pulls answer depends on the `n` cells above `SP` alone. -/
theorem pulledBytes_congr {n : Nat} {s t : State} (hsp : s.sp = t.sp)
    (hcells : ∀ k, 1 ≤ k → k ≤ n → s.mem.read (stackAddr (s.sp + BitVec.ofNat 8 k)) =
      t.mem.read (stackAddr (s.sp + BitVec.ofNat 8 k))) : pulledBytes n s = pulledBytes n t := by
  induction n generalizing s t with
  | zero => rfl
  | succ n ih =>
    have hhead : s.pop8Value = t.pop8Value := by
      rw [State.pop8Value, State.pop8Value, ← hsp]
      exact hcells 1 (le_refl 1) (by omega)
    have htail : ∀ k, 1 ≤ k → k ≤ n → s.pop8.mem.read (stackAddr (s.pop8.sp + BitVec.ofNat 8 k)) =
        t.pop8.mem.read (stackAddr (s.pop8.sp + BitVec.ofNat 8 k)) := fun k _ hkn => by
      have hoffset : s.sp + 1 + BitVec.ofNat 8 k = s.sp + BitVec.ofNat 8 (1 + k) := by
        rw [BitVec.ofNat_add, BitVec.add_assoc]
        rfl
      rw [State.pop8_sp, hoffset]
      exact hcells (1 + k) (by omega) (by omega)
    rw [pulledBytes, pulledBytes, hhead, ih (congrArg (· + 1) hsp) htail]

/-- Fewer than 256 pulls after a push and a pull do not reach the pushed cell again. -/
theorem pulledBytes_push8_pop8 {n : Nat} (hn : n < 256) (s : State) (v : Byte) :
    pulledBytes n (s.push8 v).pop8 = pulledBytes n s := by
  have hsp : (s.push8 v).pop8.sp = s.sp := BitVec.sub_add_cancel s.sp 1
  refine pulledBytes_congr hsp fun k hk hkn => ?_
  have hne : s.sp + BitVec.ofNat 8 k ≠ s.sp := by
    rw [Ne, BitVec.add_right_eq_self, ← BitVec.toNat_inj, BitVec.toNat_ofNat, BitVec.toNat_ofNat]
    omega
  rw [hsp]
  exact (s.push8_read v _).trans (if_neg fun h => hne ((stackAddr_inj _ _).mp h))

/-- Settles O45: by induction over the list from its end: the last byte pushed is the first one pulled, and the pulls
after it do not reach its cell. -/
theorem stackIsLastInFirstOut : Obligations.StackIsLastInFirstOut := by
  unfold Obligations.StackIsLastInFirstOut
  refine fun bytes s hlen => ⟨?_, ?_, fun h => ?_⟩
  · induction bytes using List.reverseRecOn with
    | nil => rfl
    | append_singleton bytes v ih =>
      rw [List.length_append, List.length_singleton] at hlen ⊢
      rw [pushedAll_append_singleton, pulledBytes, State.pop8Value_push8, pulledBytes_push8_pop8 hlen,
        ih (by omega), List.reverse_append]
      rfl
  · rw [pulledAll_sp, pushedAll_sp, BitVec.sub_add_cancel]
  · rw [pushedAll_sp, h]
    exact BitVec.sub_zero s.sp

/-! Subroutines and breaks. -/

/-- Settles O46: RTS pops the 16-bit value JSR pushed, by the round trip of `push16` and `pop16`. -/
theorem jsrThenRtsReturns : Obligations.JsrThenRtsReturns := by
  unfold Obligations.JsrThenRtsReturns
  intro w s
  have hpc : s.pc + 2 + 1 = s.pc + 3 := BitVec.add_assoc s.pc 2 1
  have hback : (s.push16 (s.pc + 2)).pop16.setPc ((s.push16 (s.pc + 2)).pop16Value + 1) =
      { s with pc := s.pc + 3, mem := (s.push16 (s.pc + 2)).mem } := by
    rw [State.pop16_push16, State.pop16Value_push16, hpc]
    rfl
  exact ⟨_, _, rfl, rfl, hback⟩

/-- A state is made of its fields. -/
theorem State.eta (t : State) : t = ⟨t.a, t.x, t.y, t.sp, t.pc, t.flagC, t.flagZ, t.flagI, t.flagD, t.flagV, t.flagN,
    t.halted, t.faultRecord, t.mem⟩ := rfl

/-- R203: BRK changes `SP`, `I`, `PC` and the bus. -/
theorem enterBreak_eq (vector : Addr) (s : State) : enterBreak vector s = { s with
    sp := s.sp - 3, flagI := true, mem := (enterBreak vector s).mem
    pc := ofHiLo ((enterBreak vector s).mem.read (vector + 1)) ((enterBreak vector s).mem.read vector) } := by
  refine (State.eta _).trans ?_
  simp

/-- R203: the cells BRK leaves, the status byte's first. -/
theorem enterBreak_read (vector : Addr) (s : State) (b : Addr) : (enterBreak vector s).mem.read b =
    if b = stackAddr (s.sp - 2) then packStatus s
    else if b = stackAddr (s.sp - 1) then loByte (s.pc + 2)
    else if b = stackAddr s.sp then hiByte (s.pc + 2) else s.mem.read b := by
  rw [enterBreak_mem, Memory.read_write, Memory.read_write, Memory.read_write]

/-- R203, R238: what BRK leaves, in the words of the claim. -/
theorem entersBreak_enterBreak (vector : Addr) (s : State) : EntersBreak vector s (enterBreak vector s) := by
  refine ⟨enterBreak_eq vector s, enterBreak_pc s vector, ?high, ?low, ?status, fun b hhigh hlow hstatus => ?frame⟩
  case high => exact (enterBreak_read vector s (stackAddr s.sp)).trans (by simp)
  case low => exact (enterBreak_read vector s (stackAddr (s.sp - 1))).trans (by simp)
  case status =>
    have hbyte := enterBreak_read vector s (stackAddr (s.sp - 2))
    rw [if_pos rfl] at hbyte
    exact hbyte ▸ statusByteOf_packStatus s
  case frame =>
    exact (enterBreak_read vector s b).trans ((if_neg hstatus).trans ((if_neg hlow).trans (if_neg hhigh)))

/-- Settles O40: BRK is `enterBreak` at BRK_VECTOR. -/
theorem brkEntersThroughVector : Obligations.BrkEntersThroughVector := by
  unfold Obligations.BrkEntersThroughVector
  exact fun c s => ⟨rfl, ⟨_, rfl, entersBreak_enterBreak c.brkVector s⟩, _, rfl, entersBreak_enterBreak 0xFFFE s⟩

/-- R204: RTI unpacks the first byte pulled and jumps to the two after it. -/
theorem returnFromBreak_eq (s : State) : returnFromBreak s = unpackStatus (s.mem.read (stackAddr (s.sp + 1)))
    { s with
      sp := s.sp + 3
      pc := ofHiLo (s.mem.read (stackAddr (s.sp + 3))) (s.mem.read (stackAddr (s.sp + 2))) } := by
  refine (State.eta _).trans (Eq.trans ?_ (State.eta _).symm)
  simp [State.pop8Value]

/-- Settles O41: `returnFromBreak_eq`, with the unpacked flags written out. -/
theorem rtiRestoresStatusAndPc : Obligations.RtiRestoresStatusAndPc := by
  unfold Obligations.RtiRestoresStatusAndPc
  exact fun s => ⟨rfl, _, rfl, congrArg Host.Outcome.next (returnFromBreak_eq s)⟩

/-- Settles O47: RTI pulls the three bytes BRK pushed: the flags it packed and `PC + 2`. -/
theorem brkThenRtiRestores : Obligations.BrkThenRtiRestores := by
  unfold Obligations.BrkThenRtiRestores
  intro s
  refine ⟨enterBreak 0xFFFE s, returnFromBreak (enterBreak 0xFFFE s), rfl, rfl, ?_⟩
  have hone : s.sp - 3 + 1 = s.sp - 2 := sp_sub_three_add_one s.sp
  have htwo : s.sp - 3 + 2 = s.sp - 1 := sp_sub_three_add_two s.sp
  have hthree : s.sp - 3 + 3 = s.sp := BitVec.sub_add_cancel s.sp 3
  obtain ⟨-, -, hhigh, hlow, -⟩ := entersBreak_enterBreak 0xFFFE s
  have hstatus : (enterBreak 0xFFFE s).mem.read (stackAddr (s.sp - 2)) = packStatus s :=
    (enterBreak_read 0xFFFE s _).trans (if_pos rfl)
  have hpulled : ofHiLo ((enterBreak 0xFFFE s).mem.read (stackAddr s.sp))
      ((enterBreak 0xFFFE s).mem.read (stackAddr (s.sp - 1))) = s.pc + 2 :=
    (congrArg₂ ofHiLo hhigh hlow).trans (ofHiLo_hiByte_loByte _)
  rw [returnFromBreak_eq, enterBreak_sp, hone, htwo, hthree, hstatus, hpulled, unpackStatus_packStatus]
  simp

end Sys2Proof.Machine
end

