-- ==== Sys2Proof/Proofs/Noninterference.lean ====
section
/-! The flags that mean nothing (10_state.md R28, 60_exceptions.md R236): a change of `D` or of `I` before an
instruction changes that flag after it at most, but for bit 2 of the status bytes that PHP and BRK push. -/

namespace Sys2Proof.Machine

open Sys2Proof.Claims BusProgram

/-- A change of flags: it leaves the bus and the index registers, which are what an operand is resolved with. -/
structure FlagChange (f : State → State) : Prop where
  withMem : ∀ (s : State) (m : Memory), f { s with mem := m } = { f s with mem := m }
  x : ∀ s, (f s).x = s.x
  y : ∀ s, (f s).y = s.y

theorem flagChange_setD (d : Bool) : FlagChange (·.setD d) := ⟨fun _ _ => rfl, fun _ => rfl, fun _ => rfl⟩

theorem flagChange_setI (b : Bool) : FlagChange (·.setI b) := ⟨fun _ _ => rfl, fun _ => rfl, fun _ => rfl⟩

namespace BusProgram

/-- The program that makes the same accesses and changes the core it ends in by `f`. -/
def mapEnd (f : State → State) : BusProgram → BusProgram
  | done core => done (f core)
  | read a k => read a fun v => (k v).mapEnd f
  | write a v p => write a v (p.mapEnd f)

theorem run_mapEnd {f : State → State} (hf : FlagChange f) (p : BusProgram) (b : Bus) (m : Memory) :
    (p.mapEnd f).run b m = f (p.run b m) := by
  induction p generalizing m with
  | done core => exact (hf.withMem core m).symm
  | read a k ih => exact ih _ _
  | write a v p ih => exact ih _

theorem resolved_mapEnd (f : State → State) (m : Mode) (s : State) (k : Operand → BusProgram) :
    resolved m s (fun o => (k o).mapEnd f) = (resolved m s k).mapEnd f := by
  unfold resolved
  split <;> rfl

theorem resolved_flagChange {f : State → State} (hf : FlagChange f) (m : Mode) (s : State)
    (k : Operand → BusProgram) : resolved m (f s) k = resolved m s k := by
  rcases m with _ | _ | _ | m | _ | _
  case mem => cases m <;> simp only [resolved, resolve, effectiveAddress, hf.x, hf.y]
  all_goals rfl

/-- The programs `q o` are the programs `p o`, or these with their end changed by `f`. -/
def Follows (f : State → State) (p q : Operand → BusProgram) : Prop :=
  (∀ o, q o = p o) ∨ ∀ o, q o = (p o).mapEnd f

/-- R28: the execution of a mnemonic does not depend on `D`; CLD and SED overwrite it and the others keep it. -/
theorem execute_setD (mn : Mnemonic) (len : Nat) (c : Config) (s : State) (d : Bool) :
    Follows (·.setD d) (execute mn · len c s) (execute mn · len c (s.setD d)) := by
  cases mn
  case cld | sed => exact .inl fun _ => rfl
  all_goals exact .inr fun o => by cases o <;> rfl

/-- R236: nor on `I`, which CLI, SEI, PLP and RTI overwrite and the others keep; but PHP and BRK push it. -/
theorem execute_setI {mn : Mnemonic} (hphp : mn ≠ .php) (hbrk : mn ≠ .brk) (len : Nat) (c : Config) (s : State)
    (b : Bool) : Follows (·.setI b) (execute mn · len c s) (execute mn · len c (s.setI b)) := by
  cases mn
  case php => exact absurd rfl hphp
  case brk => exact absurd rfl hbrk
  case cli | sei | plp | rti => exact .inl fun _ => rfl
  all_goals exact .inr fun o => by cases o <;> rfl

end BusProgram

/-- If the execution of an instruction follows a change of flags by its end at most, so does its next state. -/
theorem exec_flagChange {f : State → State} (hf : FlagChange f) {i : Instr} {s t : State}
    (hexecute : Follows f (execute i.mnemonic · i.length standardConfig s.core)
      (execute i.mnemonic · i.length standardConfig (f s.core)))
    (h : exec i s = .next t) : ∃ u, exec i (f s) = .next u ∧ (u = t ∨ u = f t) := by
  have hcore : (f s).core = f s.core := (hf.withMem s Memory.blank).symm
  have hbus : f s = { f s with mem := s.mem } := hf.withMem s s.mem
  have hmem : (f s).mem = s.mem := by rw [hbus]
  obtain rfl := eq_run_of_exec h
  refine ⟨_, exec_eq_run i (f s), ?_⟩
  rw [hcore, hmem, ofInstr, resolved_flagChange hf]
  obtain hsame | hmap := hexecute
  · left
    simp only [hsame]
    rfl
  · right
    simp only [hmap]
    rw [resolved_mapEnd, run_mapEnd hf]
    rfl

/-- R28: an instruction leaves the same state whatever `D` was, or the same but for `D`. -/
theorem exec_setD {i : Instr} {s t : State} (d : Bool) (h : exec i s = .next t) :
    ∃ u, exec i (s.setD d) = .next u ∧ (u = t ∨ u = t.setD d) :=
  exec_flagChange (flagChange_setD d) (execute_setD i.mnemonic i.length standardConfig s.core d) h

/-- R236: the same of `I`, for every instruction that does not push it. -/
theorem exec_setI {i : Instr} {s t : State} (b : Bool) (hphp : i.mnemonic ≠ .php) (hbrk : i.mnemonic ≠ .brk)
    (h : exec i s = .next t) : ∃ u, exec i (s.setI b) = .next u ∧ (u = t ∨ u = t.setI b) :=
  exec_flagChange (flagChange_setI b) (execute_setI hphp hbrk i.length standardConfig s.core b) h

/-- Settles O52: the fetch does not see `D`, the halt keeps it, and an instruction follows it by `exec_setD`. -/
theorem decimalFlagHasNoEffect : Obligations.DecimalFlagHasNoEffect := by
  unfold Obligations.DecimalFlagHasNoEffect
  intro s t d h
  obtain ⟨hrun, ⟨hop, rfl⟩ | ⟨i, hi, hexec⟩⟩ := step_cases h
  · exact ⟨_, step_of_unrecognized (s := s.setD d) hrun hop, rfl⟩
  · obtain ⟨u, hu, hut⟩ := exec_setD d hexec
    refine ⟨u, (step_of_recognized (s := s.setD d) hrun hi).trans hu, ?_⟩
    obtain rfl | rfl := hut <;> rfl

/-! PHP and BRK push the status byte, whose bit 2 is `I`. -/

theorem packStatus_setI_getLsbD (s : State) (b : Bool) {k : Nat} (hk : k ≠ 2) :
    (packStatus (s.setI b)).getLsbD k = (packStatus s).getLsbD k := by
  unfold packStatus
  simp only [State.setI_flagN, State.setI_flagV, State.setI_flagI, State.setI_flagZ, State.setI_flagC]
  have hbit (i : Bool) : (ofBit i <<< 2).getLsbD k = false := by
    cases i
    · exact BitVec.getLsbD_zero
    · exact (BitVec.getLsbD_twoPow 2 k).trans (by simp [hk.symm])
  simp only [BitVec.getLsbD_or, hbit]

/-- Two buses that differ from one another in a status byte at `cell`, and in the `I` it was packed with. -/
theorem differsInStatusBit2 {cell : Addr} {s t u : State} {b : Bool} {others : Addr → Byte}
    (ht : ∀ a, t.mem.read a = if a = cell then packStatus s else others a)
    (hu : ∀ a, u.mem.read a = if a = cell then packStatus (s.setI b) else others a) :
    DiffersInStatusBit2 cell t u := by
  refine ⟨fun a ha => ?_, fun k hk => ?_⟩
  · rw [ht, hu, if_neg ha, if_neg ha]
  · rw [ht, hu, if_pos rfl, if_pos rfl]
    exact packStatus_setI_getLsbD s b hk

theorem eq_php {i : Instr} (h : i.mnemonic = .php) : i = .php := by
  cases i <;> cases h
  rfl

theorem eq_brk {i : Instr} (h : i.mnemonic = .brk) : i = .brk := by
  cases i <;> cases h
  rfl

theorem differsInStatusBit2_push8 (s : State) (b : Bool) : DiffersInStatusBit2 (stackAddr s.sp)
    (s.push8 (packStatus s)) ((s.setI b).push8 (packStatus (s.setI b))) :=
  differsInStatusBit2 (s.push8_read _) ((s.setI b).push8_read _)

theorem differsInStatusBit2_enterBreak (vector : Addr) (s : State) (b : Bool) :
    DiffersInStatusBit2 (stackAddr (s.sp - 2)) (enterBreak vector s) (enterBreak vector (s.setI b)) :=
  differsInStatusBit2 (enterBreak_read vector s) (enterBreak_read vector (s.setI b))

/-- R236: BRK from another `I` goes to the same vector, if the status byte does not lie in it; it sets `I` in either
case. -/
theorem enterBreak_setI {vector : Addr} {s : State} (hlow : vector ≠ stackAddr (s.sp - 2))
    (hhigh : vector + 1 ≠ stackAddr (s.sp - 2)) (b : Bool) :
    { enterBreak vector (s.setI b) with mem := (enterBreak vector s).mem } = enterBreak vector s := by
  obtain ⟨hcells, -⟩ := differsInStatusBit2_enterBreak vector s b
  have hpc : (enterBreak vector (s.setI b)).pc = (enterBreak vector s).pc := by
    rw [enterBreak_pc, enterBreak_pc, hcells _ hlow, hcells _ hhigh]
  refine Eq.trans ?_ (State.eta _).symm
  simp [hpc, -enterBreak_pc]

theorem ne_stackAddr_of_toNat {a : Addr} (ha : 512 ≤ a.toNat) (sp : Byte) : a ≠ stackAddr sp := by
  have hsp := sp.isLt
  rw [Ne, eq_stackAddr_iff]
  omega

/-- Settles O53: PHP and BRK push the status byte, and every other instruction follows a change of `I` by
`exec_setI`. -/
theorem interruptDisableMasksNothing : Obligations.InterruptDisableMasksNothing := by
  unfold Obligations.InterruptDisableMasksNothing
  intro s t b i h
  by_cases hphp : i.mnemonic = .php
  · obtain rfl := eq_php hphp
    obtain rfl : _ = t := Host.Outcome.next.inj ((exec_php s).symm.trans h)
    exact ⟨_, exec_php (s.setI b), rfl, fun hne => absurd rfl hne, fun _ => differsInStatusBit2_push8 s b, nofun⟩
  by_cases hbrk : i.mnemonic = .brk
  · obtain rfl := eq_brk hbrk
    obtain rfl : enterBreak 0xFFFE s = t := Host.Outcome.next.inj h
    refine ⟨enterBreak 0xFFFE (s.setI b), rfl, ?_, fun _ hne => absurd rfl hne, nofun,
      fun _ => differsInStatusBit2_enterBreak 0xFFFE s b⟩
    exact enterBreak_setI (ne_stackAddr_of_toNat (by decide) _) (ne_stackAddr_of_toNat (by decide) _) b
  · obtain ⟨u, hu, hut⟩ := exec_setI b hphp hbrk h
    have hmem : u.mem = t.mem := by obtain rfl | rfl := hut <;> rfl
    refine ⟨u, hu, ?_, fun _ _ => hmem, fun hc => absurd hc hphp, fun hc => absurd hc hbrk⟩
    obtain rfl | rfl := hut <;> rfl

end Sys2Proof.Machine
end

