-- ==== Sys2Proof/Proofs/SbcAndFlags.lean ====
section
/-! Instructions that the spec decides itself (92_eei_decisions.md D8, D9, D14 to D16): SBC, TXS, the branches, and the
flag instructions. -/

namespace Sys2Proof.Machine

open Sys2Proof.Claims

/-! SBC adds the complement of `M` (R135, D9), known by its numbers. -/

theorem complement_toNat (m : Byte) : (m ^^^ 0xFF#8).toNat = 255 - m.toNat := by
  have hnot : m ^^^ 0xFF#8 = ~~~m := BitVec.xor_allOnes
  rw [hnot, BitVec.toNat_not]

theorem complement_toInt (m : Byte) : (m ^^^ 0xFF#8).toInt = -1 - m.toInt := by
  have hm := m.isLt
  rw [BitVec.toInt_eq_toNat_cond, BitVec.toInt_eq_toNat_cond, complement_toNat]
  split <;> split <;> omega

/-- R135: the result is the difference less the borrow, modulo 256. -/
theorem sbc_value_toNat (a m : Byte) (c : Bool) : ((adc a (m ^^^ 0xFF#8) c).value.toNat : Int) =
    ((a.toNat : Int) - m.toNat - (1 - (c.toNat : Int))) % 256 := by
  have hm := m.isLt
  rw [adc_value_toNat, complement_toNat]
  omega

/-- R135: the carry says that there is no borrow. -/
theorem sbc_c_iff (a m : Byte) (c : Bool) : (adc a (m ^^^ 0xFF#8) c).c = true ↔
    (m.toNat : Int) + (1 - (c.toNat : Int)) ≤ a.toNat := by
  have hm := m.isLt
  rw [adc_c_iff, complement_toNat]
  omega

/-- R135: `V` is signed overflow of the difference. -/
theorem sbc_v_iff_overflow (a m : Byte) (c : Bool) : (adc a (m ^^^ 0xFF#8) c).v = true ↔
    a.toInt - m.toInt - (1 - (c.toNat : Int)) < -128 ∨ 127 < a.toInt - m.toInt - (1 - (c.toNat : Int)) := by
  rw [adc_v_iff_overflow, complement_toInt]
  omega

/-- Settles O22: every form of SBC is `addOp` of the complement of its operand value. -/
theorem sbcSubtractsWithBorrow : Obligations.SbcSubtractsWithBorrow := by
  unfold Obligations.SbcSubtractsWithBorrow
  refine fun i s h => ⟨row_mem_of_mnemonic h, ?_⟩
  obtain ⟨src, hm, he⟩ := exec_sbc h
  refine ⟨src.value s, _, operandValue_of_source_mode hm s, ((he s).trans (sbcOp_eq src s)).trans (addOp_eq s _ _), ?_,
    sbc_value_toNat _ _ _, sbc_c_iff _ _ _, sbc_v_iff_overflow _ _ _⟩
  rw [length_of_source_mode hm, zeroOf_eq, signOf]

/-- Settles O31: `txsWith_eq`, and the default has TXS_SETS_NZ set. -/
theorem txsFollowsItsParameter : Obligations.TxsFollowsItsParameter := by
  unfold Obligations.TxsFollowsItsParameter
  refine fun c s => ⟨rfl, congrArg Host.Outcome.next ?_, next_setNZ_advance (s.setSp s.x) s.x⟩
  rw [txsWith_eq, zeroOf_eq]
  rfl

/-- R191: a branch on a clear flag. -/
theorem branchesWhen_clear {i : Instr} {s : State} {flag : Bool} {d : Byte} (he : exec i s = branchOp (!flag) d s) :
    BranchesWhen i d (flag = false) s := by
  have hclear : ((!flag) = true) = (flag = false) := by rw [Bool.not_eq_true']
  exact hclear ▸ branchesWhen_of_branchOp he

/-- Settles O35: each branch is `branchOp` of its flag, set or clear. -/
theorem branchesFollowTheirFlag : Obligations.BranchesFollowTheirFlag := by
  unfold Obligations.BranchesFollowTheirFlag
  exact fun d s =>
    ⟨⟨rfl, branchesWhen_clear rfl⟩, ⟨rfl, branchesWhen_of_branchOp rfl⟩,
      ⟨rfl, branchesWhen_clear rfl⟩, ⟨rfl, branchesWhen_of_branchOp rfl⟩,
      ⟨rfl, branchesWhen_clear rfl⟩, ⟨rfl, branchesWhen_of_branchOp rfl⟩,
      ⟨rfl, branchesWhen_clear rfl⟩, ⟨rfl, branchesWhen_of_branchOp rfl⟩⟩

/-- Settles O42: each arm of `exec` writes its flag and adds one to `PC`. -/
theorem flagInstructionsWriteOneFlag : Obligations.FlagInstructionsWriteOneFlag := by
  unfold Obligations.FlagInstructionsWriteOneFlag
  exact fun s => ⟨⟨rfl, rfl⟩, ⟨rfl, rfl⟩, ⟨rfl, rfl⟩, ⟨rfl, rfl⟩, ⟨rfl, rfl⟩, ⟨rfl, rfl⟩, ⟨rfl, rfl⟩, ⟨rfl, rfl⟩⟩

end Sys2Proof.Machine
end
